-- ==== Sys2Proof/Word.lean ====
section
/-! DEFINITION. The words of the 8S40: bytes and multi-byte fields as the command link carries them (R173),
samples (R1) and the 17-bit slots of the waveform store (R1, R2). -/

namespace Sys2Proof

/-- One byte of a frame or payload (R164). -/
abbrev Byte := BitVec 8

/-- A 16-bit field: a word of R173, a lane word, a pass number. -/
abbrev Half := BitVec 16

/-- A 32-bit field: a long or signed long of R173. -/
abbrev Long := BitVec 32

/-- A sample, or any other signed 16-bit value: two's complement, -32768 to 32767 (R1, 00_scope). -/
abbrev Sample := BitVec 16

/-- What one slot of the store holds: the 16 bits of the sample and the parity bit (R1). -/
structure Slot where
  value : Half
  parity : Bool
  deriving DecidableEq, Repr, Inhabited

/-- The slot with the bits of the mask inverted: a disturbance of any of the 17 bits (R2). -/
def Slot.flip (s mask : Slot) : Slot :=
  ⟨s.value ^^^ mask.value, s.parity ^^ mask.parity⟩

end Sys2Proof
end

