-- ==== Sys2Proof/Syntax.lean ====
section
/-! DEFINITION. The commands the part takes: one constructor of `Instr` per row of spec/opcode_table.json.
A command of a port carries the fields of its payload in the order its rule names them (R173). Enumeration bytes are kept
as bytes, because a code that names nothing is refused by the command's own rule and not by the frame (R173). Presence
bytes are `Option`, flag bytes and entry flags are `Bool`: other values of those never reach a command (R173, R174). -/

namespace Sys2Proof

/-- The two command ports (R164). -/
inductive Port where
  | a
  | b
  deriving DecidableEq, Repr

/-- The other port. -/
def Port.other : Port → Port
  | .a => .b
  | .b => .a

/-- The two marker units of a channel (R128). -/
inductive MkUnit where
  | mk1
  | mk2
  deriving DecidableEq, Repr

/-- The entry record as PUT-ENTRY carries it (R174). `next` is FFh for an absent next. -/
structure EntryArg where
  segment : Byte
  repeats : Half
  direction : Byte
  wait : Bool
  leave : Bool
  mk1 : Bool
  mk2 : Bool
  next : Byte
  deriving DecidableEq, Repr

/-- The optional parameters of SET-STATIC, in the order of R83. -/
structure StaticArgs where
  divider : Option Half
  interp : Option Byte
  combine : Option Byte
  endMode : Option Byte
  idle : Option Half
  park : Option Half
  prio : Option Byte
  startSrc : Option Byte
  advSrc : Option Byte
  updSrc : Option Byte
  deriving DecidableEq, Repr

/-- The optional parameters of SET-LIVE, in the order of R138, as signed longs (R173). -/
structure LiveArgs where
  gain : Option Long
  offset : Option Long
  step : Option Long
  th1 : Option Long
  th2 : Option Long
  deriving DecidableEq, Repr

/-- The optional fields of SET-MARKER, in the order of R129. -/
structure MarkerArgs where
  mode : Option Byte
  width : Option Half
  polarity : Option Byte
  hyst : Option Half
  deriving DecidableEq, Repr

/-- The optional driver of SET-SYNC-DRIVER: a channel byte and a unit byte, channel FFh for NONE (R173). -/
structure DriverArg where
  channel : Byte
  unit : Byte
  deriving DecidableEq, Repr

/-- A disturbance of stored bits: the bits of `mask` of the slot at `addr` are inverted (R2, log 3). -/
structure Upset where
  addr : Nat
  mask : Slot
  deriving DecidableEq, Repr

/-- The commands of spec/opcode_table.json. -/
inductive Instr where
  /-- IDENTIFY (R177) -/
  | identify (p : Port)
  /-- RESET_PORT (R172) -/
  | resetPort (p : Port)
  /-- QUERY_STORE (R16) -/
  | queryStore (p : Port)
  /-- OPEN_LOAD (R22) -/
  | openLoad (p : Port) (seg : Byte) (declared : Long) (vis : Byte) (label : Option Half)
  /-- LOAD_DATA (R23) -/
  | loadData (p : Port) (samples : List Sample)
  /-- CLOSE_LOAD (R26) -/
  | closeLoad (p : Port)
  /-- ABORT_LOAD (R27) -/
  | abortLoad (p : Port)
  /-- DELETE_SEGMENT (R30) -/
  | deleteSegment (p : Port) (seg : Byte)
  /-- SET_VISIBILITY (R32) -/
  | setVisibility (p : Port) (seg vis : Byte)
  /-- READ_SEGMENT (R33) -/
  | readSegment (p : Port) (seg : Byte) (offset : Half) (count : Byte)
  /-- QUERY_SEGMENT (R39) -/
  | querySegment (p : Port) (seg : Byte)
  /-- PUT_ENTRY (R48) -/
  | putEntry (p : Port) (ch index : Byte) (entry : EntryArg)
  /-- TRIM_LIST (R52) -/
  | trimList (p : Port) (ch newLength : Byte)
  /-- QUERY_ENTRY (R55) -/
  | queryEntry (p : Port) (ch index : Byte)
  /-- QUERY_LIST (R56) -/
  | queryList (p : Port) (ch : Byte)
  /-- CLAIM (R151) -/
  | claim (p : Port) (mask : Byte) (yieldable take : Bool)
  /-- RELEASE (R153) -/
  | release (p : Port) (mask : Byte)
  /-- SET_STATIC (R82) -/
  | setStatic (p : Port) (ch : Byte) (args : StaticArgs)
  /-- SET_LIVE (R140) -/
  | setLive (p : Port) (ch : Byte) (point : Option Byte) (args : LiveArgs)
  /-- APPLY_GROUP (R147) -/
  | applyGroup (p : Port) (mask : Byte)
  /-- ARM (R59) -/
  | arm (p : Port) (ch : Byte)
  /-- DISARM (R63) -/
  | disarm (p : Port) (ch : Byte)
  /-- START (R65) -/
  | start (p : Port) (mask : Byte)
  /-- STOP (R72) -/
  | stop (p : Port) (mask mode : Byte)
  /-- JUMP (R74) -/
  | jump (p : Port) (ch target : Byte)
  /-- CLEAR_FAULT (R77) -/
  | clearFault (p : Port) (ch : Byte)
  /-- QUERY_CHANNEL (R182) -/
  | queryChannel (p : Port) (ch : Byte)
  /-- SET_SOURCE_EDGE (R121) -/
  | setSourceEdge (p : Port) (source : Byte) (mode : Option Byte)
  /-- SET_MARKER (R129) -/
  | setMarker (p : Port) (ch unit : Byte) (args : MarkerArgs)
  /-- SET_SYNC_DRIVER (R136) -/
  | setSyncDriver (p : Port) (line : Byte) (driver : Option DriverArg)
  /-- FIRE (R122) -/
  | fire (p : Port)
  /-- SET_EVENT_ENABLE (R180); bit 15 of the word is 0 in every frame of the right shape (R176) -/
  | setEventEnable (p : Port) (kinds : BitVec 15)
  /-- TAKE_EVENTS (R181) -/
  | takeEvents (p : Port)
  /-- BAD_FRAME (R166): a command transaction with these whole bytes -/
  | badFrame (p : Port) (bytes : List Byte)
  /-- OVERRUN (R168): a command transaction released in EXECUTING, whatever its bytes are -/
  | overrun (p : Port)
  /-- READ_TRANSACTION (R170): `clocked` whole bytes were clocked after the C3h byte -/
  | readTransaction (p : Port) (clocked : Nat)
  /-- DEVICE_RESET (R57): assertion of RESET, or power-up -/
  | deviceReset
  /-- RESET_RELEASE (R119): bit n of `levels` is the level TRGn holds -/
  | resetRelease (levels : BitVec 4)
  /-- PORT_RESET (R161): assertion of the port's PRST line -/
  | portReset (p : Port)
  /-- PRST_RELEASE (R172) -/
  | prstRelease (p : Port)
  /-- CLOCK_LOST (R80) -/
  | clockLost
  /-- RUN_LENGTH_RESET (R78) -/
  | runLengthReset
  /-- CLOCK_RESTORED (R81) -/
  | clockRestored
  /-- OUTPUT_TICK (R58) -/
  | outputTick (c : Fin 8)
  /-- STARVED (R76) -/
  | starved (c : Fin 8)
  /-- MARKER_PULSE_END (R131) -/
  | markerPulseEnd (c : Fin 8) (u : MkUnit)
  /-- TRG_EDGE (R120): the pin's level has been judged to be `level` -/
  | trgEdge (pin : Fin 4) (level : Bool)
  /-- SYNC_LINE_EDGE (R135) -/
  | syncLineEdge (line : Fin 4)
  /-- FETCH_BURST_COMPLETE (R105) -/
  | fetchBurstComplete (upsets : List Upset)
  /-- DRAIN_BURST_COMPLETE (R25) -/
  | drainBurstComplete
  /-- READBACK_BURST_COMPLETE (R35) -/
  | readbackBurstComplete (upsets : List Upset)
  /-- SCLK_RISING_EDGE (R79) -/
  | sclkRisingEdge
  /-- JUDGED_LEVEL_CHANGE (R119) -/
  | judgedLevelChange (pin : Fin 4) (level : Bool)
  deriving DecidableEq, Repr

end Sys2Proof
end

