-- ==== Sys2Proof/Decode.lean ====
section
/-! DEFINITION. The command link's byte layouts (10_the_command_link): the CRC and the frame checks of R166, the
payload encodings of R173 to R176, the command codes of 10.6. `decodeFrame` reads a command frame, `encodeFrame` writes one.
No row of spec/opcode_table.json has bits, so `decodeTableWord` reads no command from a word. -/

namespace Sys2Proof

/-! ### Field encodings (R173): multi-byte fields are big-endian -/

/-- A word: two bytes, high byte first. -/
def putHalf (h : Half) : List Byte := [h.extractLsb' 8 8, h.extractLsb' 0 8]

/-- A long: four bytes, high byte first. -/
def putLong (w : Long) : List Byte :=
  [w.extractLsb' 24 8, w.extractLsb' 16 8, w.extractLsb' 8 8, w.extractLsb' 0 8]

/-- A flag: 00h clear, 01h set. -/
def putFlag (b : Bool) : List Byte := [if b then 0x01#8 else 0x00#8]

/-- An optional field: a presence byte, then the field when present. -/
def putOpt {α : Type} (f : α → List Byte) : Option α → List Byte
  | none => [0x00#8]
  | some x => 0x01#8 :: f x

/-- One byte. -/
def putByte (b : Byte) : List Byte := [b]

def getByte : List Byte → Option (Byte × List Byte)
  | b :: r => some (b, r)
  | [] => none

def getHalf : List Byte → Option (Half × List Byte)
  | h :: l :: r => some (h ++ l, r)
  | _ => none

def getLong : List Byte → Option (Long × List Byte)
  | b3 :: b2 :: b1 :: b0 :: r => some (b3 ++ b2 ++ b1 ++ b0, r)
  | _ => none

/-- A flag or presence byte: only 00h and 01h have the right shape (R173). -/
def getFlag : List Byte → Option (Bool × List Byte)
  | b :: r => if b = 0x00#8 then some (false, r) else if b = 0x01#8 then some (true, r) else none
  | [] => none

def getOpt {α : Type} (f : List Byte → Option (α × List Byte)) (l : List Byte) :
    Option (Option α × List Byte) :=
  match getFlag l with
  | some (true, r) =>
    match f r with
    | some (x, r') => some (some x, r')
    | none => none
  | some (false, r) => some (none, r)
  | none => none

/-- Samples as signed words (R175); an odd number of bytes has the wrong shape (R173). -/
def getSamples : List Byte → Option (List Sample)
  | [] => some []
  | [_] => none
  | h :: l :: r => (getSamples r).map ((h ++ l) :: ·)

def putSamples : List Sample → List Byte
  | [] => []
  | s :: r => putHalf s ++ putSamples r

/-- The entry flags byte of R174: bit 0 wait, bit 1 leave, bit 2 MK1, bit 3 MK2, bits 4 to 7 zero. -/
def putEntryFlags (wait leave mk1 mk2 : Bool) : Byte :=
  (if wait then 0x01#8 else 0#8) ||| (if leave then 0x02#8 else 0#8) ||| (if mk1 then 0x04#8 else 0#8)
    ||| (if mk2 then 0x08#8 else 0#8)

/-- The 6 bytes of an entry record (R174). -/
def putEntryArg (e : EntryArg) : List Byte :=
  e.segment :: putHalf e.repeats ++ [e.direction, putEntryFlags e.wait e.leave e.mk1 e.mk2, e.next]

def getEntryArg : List Byte → Option (EntryArg × List Byte)
  | seg :: rh :: rl :: dir :: fl :: nx :: r =>
    if fl.extractLsb' 4 4 = 0#4 then
      some (⟨seg, rh ++ rl, dir, fl.getLsbD 0, fl.getLsbD 1, fl.getLsbD 2, fl.getLsbD 3, nx⟩, r)
    else none
  | _ => none

def putDriverArg (d : DriverArg) : List Byte := [d.channel, d.unit]

def getDriverArg : List Byte → Option (DriverArg × List Byte)
  | c :: u :: r => some (⟨c, u⟩, r)
  | _ => none

def getStaticArgs (l : List Byte) : Option (StaticArgs × List Byte) := do
  let (divider, r) ← getOpt getHalf l
  let (interp, r) ← getOpt getByte r
  let (combine, r) ← getOpt getByte r
  let (endMode, r) ← getOpt getByte r
  let (idle, r) ← getOpt getHalf r
  let (park, r) ← getOpt getHalf r
  let (prio, r) ← getOpt getByte r
  let (startSrc, r) ← getOpt getByte r
  let (advSrc, r) ← getOpt getByte r
  let (updSrc, r) ← getOpt getByte r
  some (⟨divider, interp, combine, endMode, idle, park, prio, startSrc, advSrc, updSrc⟩, r)

def putStaticArgs (a : StaticArgs) : List Byte :=
  putOpt putHalf a.divider ++ putOpt putByte a.interp ++ putOpt putByte a.combine ++ putOpt putByte a.endMode
    ++ putOpt putHalf a.idle ++ putOpt putHalf a.park ++ putOpt putByte a.prio ++ putOpt putByte a.startSrc
    ++ putOpt putByte a.advSrc ++ putOpt putByte a.updSrc

def getLiveArgs (l : List Byte) : Option (LiveArgs × List Byte) := do
  let (gain, r) ← getOpt getLong l
  let (offset, r) ← getOpt getLong r
  let (step, r) ← getOpt getLong r
  let (th1, r) ← getOpt getLong r
  let (th2, r) ← getOpt getLong r
  some (⟨gain, offset, step, th1, th2⟩, r)

def putLiveArgs (a : LiveArgs) : List Byte :=
  putOpt putLong a.gain ++ putOpt putLong a.offset ++ putOpt putLong a.step ++ putOpt putLong a.th1
    ++ putOpt putLong a.th2

def getMarkerArgs (l : List Byte) : Option (MarkerArgs × List Byte) := do
  let (mode, r) ← getOpt getByte l
  let (width, r) ← getOpt getHalf r
  let (polarity, r) ← getOpt getByte r
  let (hyst, r) ← getOpt getHalf r
  some (⟨mode, width, polarity, hyst⟩, r)

def putMarkerArgs (a : MarkerArgs) : List Byte :=
  putOpt putByte a.mode ++ putOpt putHalf a.width ++ putOpt putByte a.polarity ++ putOpt putHalf a.hyst

/-! ### Command codes (10.6) -/

namespace Code
def identify : Byte := 0x01#8
def resetPort : Byte := 0x02#8
def queryStore : Byte := 0x03#8
def openLoad : Byte := 0x10#8
def loadData : Byte := 0x11#8
def closeLoad : Byte := 0x12#8
def abortLoad : Byte := 0x13#8
def deleteSegment : Byte := 0x14#8
def setVisibility : Byte := 0x15#8
def readSegment : Byte := 0x16#8
def querySegment : Byte := 0x17#8
def putEntry : Byte := 0x20#8
def trimList : Byte := 0x21#8
def queryEntry : Byte := 0x22#8
def queryList : Byte := 0x23#8
def claim : Byte := 0x28#8
def release : Byte := 0x29#8
def setStatic : Byte := 0x30#8
def setLive : Byte := 0x31#8
def applyGroup : Byte := 0x32#8
def arm : Byte := 0x33#8
def disarm : Byte := 0x34#8
def start : Byte := 0x35#8
def stop : Byte := 0x36#8
def jump : Byte := 0x37#8
def clearFault : Byte := 0x38#8
def queryChannel : Byte := 0x39#8
def setSourceEdge : Byte := 0x40#8
def setMarker : Byte := 0x41#8
def setSyncDriver : Byte := 0x42#8
def fire : Byte := 0x43#8
def setEventEnable : Byte := 0x48#8
def takeEvents : Byte := 0x49#8
end Code

/-- The code and payload of a command, for the 33 rows a frame can carry; `none` for the other rows. -/
def encodeCommand : Instr → Option (Byte × List Byte)
  | .identify _ => some (Code.identify, [])
  | .resetPort _ => some (Code.resetPort, [])
  | .queryStore _ => some (Code.queryStore, [])
  | .openLoad _ seg d vis label =>
    some (Code.openLoad, seg :: (putLong d ++ (vis :: putOpt putHalf label)))
  | .loadData _ samples => some (Code.loadData, putSamples samples)
  | .closeLoad _ => some (Code.closeLoad, [])
  | .abortLoad _ => some (Code.abortLoad, [])
  | .deleteSegment _ seg => some (Code.deleteSegment, [seg])
  | .setVisibility _ seg vis => some (Code.setVisibility, [seg, vis])
  | .readSegment _ seg offset count => some (Code.readSegment, seg :: (putHalf offset ++ [count]))
  | .querySegment _ seg => some (Code.querySegment, [seg])
  | .putEntry _ ch index e => some (Code.putEntry, ch :: index :: putEntryArg e)
  | .trimList _ ch m => some (Code.trimList, [ch, m])
  | .queryEntry _ ch index => some (Code.queryEntry, [ch, index])
  | .queryList _ ch => some (Code.queryList, [ch])
  | .claim _ mask y t => some (Code.claim, mask :: (putFlag y ++ putFlag t))
  | .release _ mask => some (Code.release, [mask])
  | .setStatic _ ch a => some (Code.setStatic, ch :: putStaticArgs a)
  | .setLive _ ch pt a => some (Code.setLive, ch :: (putOpt putByte pt ++ putLiveArgs a))
  | .applyGroup _ mask => some (Code.applyGroup, [mask])
  | .arm _ ch => some (Code.arm, [ch])
  | .disarm _ ch => some (Code.disarm, [ch])
  | .start _ mask => some (Code.start, [mask])
  | .stop _ mask mode => some (Code.stop, [mask, mode])
  | .jump _ ch t => some (Code.jump, [ch, t])
  | .clearFault _ ch => some (Code.clearFault, [ch])
  | .queryChannel _ ch => some (Code.queryChannel, [ch])
  | .setSourceEdge _ src mode => some (Code.setSourceEdge, src :: putOpt putByte mode)
  | .setMarker _ ch u a => some (Code.setMarker, ch :: u :: putMarkerArgs a)
  | .setSyncDriver _ line d => some (Code.setSyncDriver, line :: putOpt putDriverArg d)
  | .fire _ => some (Code.fire, [])
  | .setEventEnable _ k => some (Code.setEventEnable, putHalf (k.setWidth 16))
  | .takeEvents _ => some (Code.takeEvents, [])
  | .badFrame _ _ | .overrun _ | .readTransaction _ _ | .deviceReset | .resetRelease _ | .portReset _
  | .prstRelease _ | .clockLost | .runLengthReset | .clockRestored | .outputTick _ | .starved _
  | .markerPulseEnd _ _ | .trgEdge _ _ | .syncLineEdge _ | .fetchBurstComplete _ | .drainBurstComplete
  | .readbackBurstComplete _ | .sclkRisingEdge | .judgedLevelChange _ _ => none

/-- Why a command frame is refused before its command's own rule (R166). -/
inductive FrameError where
  /-- checks 1 to 5: BAD-FRAME -/
  | badFrame
  /-- check 6: UNKNOWN-COMMAND -/
  | unknownCommand
  /-- check 7: BAD-ARGUMENT -/
  | badShape
  deriving DecidableEq, Repr

/-- A payload has the right shape when its fields take up all of it (R173). -/
def finish (x : Option (Instr × List Byte)) : Except FrameError Instr :=
  match x with
  | some (i, []) => .ok i
  | _ => .error .badShape

/-- Checks 6 and 7 of R166: the command code, then the shape of the payload. -/
def parseCommand (p : Port) (code : Byte) (pl : List Byte) : Except FrameError Instr :=
  match code.toNat with
  | 0x01 => finish (some (.identify p, pl))
  | 0x02 => finish (some (.resetPort p, pl))
  | 0x03 => finish (some (.queryStore p, pl))
  | 0x10 => finish do
      let (seg, r) ← getByte pl
      let (d, r) ← getLong r
      let (vis, r) ← getByte r
      let (label, r) ← getOpt getHalf r
      some (.openLoad p seg d vis label, r)
  | 0x11 => finish do
      let samples ← getSamples pl
      some (.loadData p samples, [])
  | 0x12 => finish (some (.closeLoad p, pl))
  | 0x13 => finish (some (.abortLoad p, pl))
  | 0x14 => finish do
      let (seg, r) ← getByte pl
      some (.deleteSegment p seg, r)
  | 0x15 => finish do
      let (seg, r) ← getByte pl
      let (vis, r) ← getByte r
      some (.setVisibility p seg vis, r)
  | 0x16 => finish do
      let (seg, r) ← getByte pl
      let (offset, r) ← getHalf r
      let (count, r) ← getByte r
      some (.readSegment p seg offset count, r)
  | 0x17 => finish do
      let (seg, r) ← getByte pl
      some (.querySegment p seg, r)
  | 0x20 => finish do
      let (ch, r) ← getByte pl
      let (index, r) ← getByte r
      let (e, r) ← getEntryArg r
      some (.putEntry p ch index e, r)
  | 0x21 => finish do
      let (ch, r) ← getByte pl
      let (m, r) ← getByte r
      some (.trimList p ch m, r)
  | 0x22 => finish do
      let (ch, r) ← getByte pl
      let (index, r) ← getByte r
      some (.queryEntry p ch index, r)
  | 0x23 => finish do
      let (ch, r) ← getByte pl
      some (.queryList p ch, r)
  | 0x28 => finish do
      let (mask, r) ← getByte pl
      let (y, r) ← getFlag r
      let (t, r) ← getFlag r
      some (.claim p mask y t, r)
  | 0x29 => finish do
      let (mask, r) ← getByte pl
      some (.release p mask, r)
  | 0x30 => finish do
      let (ch, r) ← getByte pl
      let (a, r) ← getStaticArgs r
      some (.setStatic p ch a, r)
  | 0x31 => finish do
      let (ch, r) ← getByte pl
      let (pt, r) ← getOpt getByte r
      let (a, r) ← getLiveArgs r
      some (.setLive p ch pt a, r)
  | 0x32 => finish do
      let (mask, r) ← getByte pl
      some (.applyGroup p mask, r)
  | 0x33 => finish do
      let (ch, r) ← getByte pl
      some (.arm p ch, r)
  | 0x34 => finish do
      let (ch, r) ← getByte pl
      some (.disarm p ch, r)
  | 0x35 => finish do
      let (mask, r) ← getByte pl
      some (.start p mask, r)
  | 0x36 => finish do
      let (mask, r) ← getByte pl
      let (mode, r) ← getByte r
      some (.stop p mask mode, r)
  | 0x37 => finish do
      let (ch, r) ← getByte pl
      let (t, r) ← getByte r
      some (.jump p ch t, r)
  | 0x38 => finish do
      let (ch, r) ← getByte pl
      some (.clearFault p ch, r)
  | 0x39 => finish do
      let (ch, r) ← getByte pl
      some (.queryChannel p ch, r)
  | 0x40 => finish do
      let (src, r) ← getByte pl
      let (mode, r) ← getOpt getByte r
      some (.setSourceEdge p src mode, r)
  | 0x41 => finish do
      let (ch, r) ← getByte pl
      let (u, r) ← getByte r
      let (a, r) ← getMarkerArgs r
      some (.setMarker p ch u a, r)
  | 0x42 => finish do
      let (line, r) ← getByte pl
      let (d, r) ← getOpt getDriverArg r
      some (.setSyncDriver p line d, r)
  | 0x43 => finish (some (.fire p, pl))
  | 0x48 => finish do
      let (w, r) ← getHalf pl
      if w.getLsbD 15 then none else some (.setEventEnable p (w.setWidth 15), r)
  | 0x49 => finish (some (.takeEvents p, pl))
  | _ => .error .unknownCommand

/-! ### CRC and frames (R166, 10.4) -/

/-- One bit into the 16-bit remainder, generator 1021h, not reflected. -/
def crcBit (crc : Half) (bit : Bool) : Half :=
  if crc.getLsbD 15 ^^ bit then (crc <<< 1) ^^^ 0x1021#16 else crc <<< 1

/-- One byte, most significant bit first. -/
def crcByte (crc : Half) (b : Byte) : Half :=
  [7, 6, 5, 4, 3, 2, 1, 0].foldl (fun r i => crcBit r (b.getLsbD i)) crc

/-- The CRC of R166: initial value FFFFh, result not inverted. -/
def crc16 (l : List Byte) : Half := l.foldl crcByte 0xFFFF#16

/-- A frame body: what the CRC covers, then the CRC, high byte first. -/
def withCrc (body : List Byte) : List Byte := body ++ putHalf (crc16 body)

/-- The command frame of 10.4 for a command that a frame can carry. -/
def encodeFrame (i : Instr) : Option (List Byte) :=
  match encodeCommand i with
  | some (code, pl) => some (0xA5#8 :: withCrc (code :: (putHalf (BitVec.ofNat 16 pl.length) ++ pl)))
  | none => none

/-- The checks of R166 on the whole bytes of a command transaction, in their order. -/
def decodeFrame (p : Port) (bytes : List Byte) : Except FrameError Instr :=
  match bytes with
  | sync :: code :: h :: l :: rest =>
    let n := (h ++ l : Half).toNat
    if sync ≠ 0xA5#8 then .error .badFrame
    else if bytes.length < 6 then .error .badFrame
    else if 300 < n then .error .badFrame
    else if bytes.length ≠ 6 + n then .error .badFrame
    else if rest.drop n ≠ putHalf (crc16 (code :: h :: l :: rest.take n)) then .error .badFrame
    else parseCommand p code (rest.take n)
  | _ => .error .badFrame

/-- How many whole bytes the frame of a command has; 0 for the rows no frame carries. -/
def frameLength (i : Instr) : Nat :=
  match encodeCommand i with
  | some (_, pl) => 6 + pl.length
  | none => 0

/-- The code echo of the response to a frame refused by R166: the second byte received, or 00h. -/
def echoOf (bytes : List Byte) : Byte := bytes.getD 1 0x00#8

/-- The first byte of a read transaction (R164). -/
def readByte : Byte := 0xC3#8

/-! ### Bits of a transaction (R164) -/

/-- The whole bytes of the bits taken from data input, most significant bit first. A trailing group of fewer than eight
bits is ignored. -/
def bytesOfBits : List Bool → List Byte
  | b7 :: b6 :: b5 :: b4 :: b3 :: b2 :: b1 :: b0 :: r =>
    BitVec.ofNat 8 (128 * b7.toNat + 64 * b6.toNat + 32 * b5.toNat + 16 * b4.toNat + 8 * b3.toNat + 4 * b2.toNat
      + 2 * b1.toNat + b0.toNat) :: bytesOfBits r
  | _ => []

/-- The bits of bytes in the order in which a port takes or drives them. -/
def bitsOfBytes (l : List Byte) : List Bool :=
  l.flatMap fun b => [7, 6, 5, 4, 3, 2, 1, 0].map fun i => b.getLsbD i

/-- The event that a transaction with these bits is, on a port that takes frames: none without a whole byte; a read
transaction when the first byte is C3h; else the command of its frame, or a frame refused (R164, R166). -/
def transactionOf (p : Port) (bits : List Bool) : Option Instr :=
  match bytesOfBits bits with
  | [] => none
  | b :: r =>
    if b = readByte then some (.readTransaction p r.length)
    else match decodeFrame p (b :: r) with
      | .ok i => some i
      | .error _ => some (.badFrame p (b :: r))

/-- The command a word of the table spells: no row of spec/opcode_table.json has bits. -/
def decodeTableWord (_nbits _w : Nat) : Option Instr := none

end Sys2Proof
end

