-- ==== Sys2Proof/Config.lean ====
section
/-! DEFINITION. What the manual leaves open: the one free value of the model. It has no body, so nothing can be
proved about which value it is. -/

namespace Sys2Proof

/-- The contents of a slot that has not been written since the `epoch`-th device reset, by address (page * 256 + slot).
R1: "After a device reset, every slot holds an unspecified value and an unspecified parity bit until it is next
written." A free value (log 2). -/
opaque Config.unwrittenSlot (epoch addr : Nat) : Slot

end Sys2Proof
end

