-- ==== Sys2Proof/Machine/State.lean ====
section
/-! DEFINITION. The state of the part: every register, list, buffer, counter, mode and flag the manual gives it, as plain
data, and `State.reset`. What the manual derives from these (RDY, ATTN, pin and line levels, the request field of a
Fetcher) is computed, not stored twice (log 13). -/

namespace Sys2Proof.Machine

/-- Channels 0 to 7. -/
abbrev ChanId := Fin 8

/-- Segment ids 0 to 255 (R17). -/
abbrev SegId := Fin 256

/-- Page numbers 0 to 2047 (R1). -/
abbrev PageNo := Fin 2048

/-- Indices of sequence-list entries, 0 to 63 (R41). -/
abbrev EntryIx := Fin 64

/-- One value for each port. -/
structure PerPort (α : Type) where
  a : α
  b : α
  deriving DecidableEq, Repr

/-! ### The waveform store (01) -/

/-- Page states (R3). -/
inductive PageState where
  | free
  | held
  | retired
  deriving DecidableEq, Repr

/-- A page record (R3). -/
structure PageRec where
  state : PageState
  suspect : Bool
  deriving DecidableEq, Repr

/-- The written slots by address (page * 256 + slot): addresses strictly rising, one cell per slot written since the
last device reset. An unlisted address holds `Config.unwrittenSlot` (R1, log 2). -/
abbrev Memory := List (Nat × Slot)

/-- Who asks for and is granted bursts (R11). -/
inductive Requester where
  | fetcher (c : ChanId)
  | loadUnit (p : Port)
  deriving DecidableEq, Repr

/-- What a Fetcher's burst reads: the segment, the tags of its items (R101) and the segment's length. -/
structure FetchTag where
  seg : SegId
  entry : EntryIx
  pass : Half
  index : Nat
  length : Nat
  deriving DecidableEq, Repr

/-- The burst in flight (R11), with the burst mark of R100: `keep` is KEEP, else DROP. -/
structure Burst where
  requester : Requester
  write : Bool
  page : PageNo
  first : Nat
  ascending : Bool
  count : Nat
  values : List Sample
  keep : Bool
  tag : Option FetchTag
  deriving DecidableEq, Repr

/-! ### Segments and Load Units (02) -/

/-- Segment states (R17). -/
inductive SegState where
  | free
  | loading
  | ready
  | doomed
  deriving DecidableEq, Repr

/-- Visibility (R17): `ownerOnly` is PRIVATE, `shared` is SHARED. -/
inductive Visibility where
  | ownerOnly
  | shared
  deriving DecidableEq, Repr

/-- A segment record (R17); the id is its index in the table. -/
structure SegRec where
  state : SegState
  owner : Option Port
  vis : Option Visibility
  declared : Option Nat
  length : Option Nat
  pages : List PageNo
  refs : Nat
  damaged : Bool
  label : Option Half
  deriving DecidableEq, Repr

/-- The FREE record (R17, R19). -/
def SegRec.freed : SegRec := ⟨.free, none, none, none, none, [], 0, false, none⟩

/-- Load phases (R20). -/
inductive LoadPhase where
  | noLoad
  | opened
  | aborting
  deriving DecidableEq, Repr

/-- Whether a readback is under way, or has been cancelled by R37 and is to be answered, at once or at the completion of
its own burst in flight. -/
inductive ReadbackMark where
  | live
  | cancelled
  | cancelledInFlight
  deriving DecidableEq, Repr

/-- The READ-SEGMENT in progress (R20, R34): `offset` is the offset of the command, `next` the next stored index,
`clamped` the mark of R33. -/
structure Readback where
  seg : SegId
  offset : Nat
  next : Nat
  remaining : Nat
  samples : List Sample
  suspects : List Nat
  clamped : Bool
  mark : ReadbackMark
  deriving DecidableEq, Repr

/-- A Load Unit (R20). -/
structure LoadUnit where
  phase : LoadPhase
  seg : Option SegId
  received : Nat
  wpos : Nat
  buffer : List Sample
  oversize : Bool
  readback : Option Readback
  deriving DecidableEq, Repr

/-- A Load Unit after a device reset (R20). -/
def LoadUnit.empty : LoadUnit := ⟨.noLoad, none, 0, 0, [], false, none⟩

/-! ### Sequence lists (03) -/

/-- Directions (R43). -/
inductive Direction where
  | forward
  | reverse
  | pingpong
  deriving DecidableEq, Repr

/-- An entry (R42). -/
structure Entry where
  seg : SegId
  repeats : Half
  dir : Direction
  wait : Bool
  leave : Bool
  mk1 : Bool
  mk2 : Bool
  next : Option EntryIx
  deriving DecidableEq, Repr

/-! ### Channels (04, 05, 06, 07, 08) -/

/-- Channel states (R57). -/
inductive ChanState where
  | idle
  | arming
  | armed
  | running
  | waiting
  | stopping
  | halted
  deriving DecidableEq, Repr

/-- Stop points and stop modes (R57, R72). -/
inductive StopPoint where
  | immediate
  | atPass
  | atListEnd
  deriving DecidableEq, Repr

/-- Fault causes (R76). -/
inductive FaultCause where
  | starved
  | clockLost
  deriving DecidableEq, Repr

/-- The fault record (R76). -/
structure FaultRec where
  cause : FaultCause
  entry : EntryIx
  pass : Half
  index : Nat
  before : ChanState
  deriving DecidableEq, Repr

/-- Interpolation (R83): `hold` is NONE. -/
inductive Interp where
  | hold
  | linear
  deriving DecidableEq, Repr

/-- Combine (R83). -/
inductive Combine where
  | alone
  | addPartner
  deriving DecidableEq, Repr

/-- End mode (R83). -/
inductive EndMode where
  | stop
  | loop
  deriving DecidableEq, Repr

/-- Trigger sources (R119). -/
inductive Source where
  | trg (n : Fin 4)
  | syn (n : Fin 4)
  | soft (p : Port)
  deriving DecidableEq, Repr

/-- Static parameters (R83). -/
structure StaticParams where
  divider : Nat
  interp : Interp
  combine : Combine
  endMode : EndMode
  idle : Sample
  park : Sample
  prio : Fin 4
  startSrc : Option Source
  advSrc : Option Source
  updSrc : Option Source
  deriving DecidableEq, Repr

/-- Live parameters (R138). -/
structure LiveParams where
  gain : Sample
  offset : Sample
  step : Nat
  th1 : Sample
  th2 : Sample
  deriving DecidableEq, Repr

/-- Apply points (R139). -/
inductive ApplyPoint where
  | now
  | pass
  | entry
  | trigger
  deriving DecidableEq, Repr

/-- The pending record (R139). -/
structure PendingRec where
  gain : Option Sample
  offset : Option Sample
  step : Option Nat
  th1 : Option Sample
  th2 : Option Sample
  point : Option ApplyPoint
  group : Bool
  deriving DecidableEq, Repr

/-- The empty record (R139). -/
def PendingRec.empty : PendingRec := ⟨none, none, none, none, none, none, false⟩

/-- The fetch cursor when it has not ended (R100, R103). -/
structure Cursor where
  entry : EntryIx
  pass : Half
  index : Nat
  deriving DecidableEq, Repr

/-- A FIFO item (R101). -/
structure Item where
  value : Sample
  entry : EntryIx
  pass : Half
  index : Nat
  last : Bool
  deriving DecidableEq, Repr

/-- Marker modes (R128). -/
inductive MarkerMode where
  | off
  | entry
  | pass
  | level
  deriving DecidableEq, Repr

/-- Marker polarity (R128). -/
inductive Polarity where
  | normal
  | inverted
  deriving DecidableEq, Repr

/-- A marker unit (R128). -/
structure Marker where
  mode : MarkerMode
  width : Nat
  polarity : Polarity
  hyst : Nat
  active : Bool
  remaining : Nat
  deriving DecidableEq, Repr

/-- A marker unit after a device reset (R128). -/
def Marker.reset : Marker := ⟨.off, 1, .normal, 0, false, 0⟩

/-- Everything one channel holds: the channel record (R57), its sequence list (R41), static and live parameters (R83,
R138), pending record (R139), Sample Path (R86), Fetcher (R100), latches (R123) and marker units (R128). `pass` is at
once the current pass and the passes-completed counter (R85). -/
structure Chan where
  state : ChanState
  entry : EntryIx
  pass : Half
  pos : Nat
  stop : Option StopPoint
  jump : Option EntryIx
  startPending : Bool
  startRequest : Bool
  fault : Option FaultRec
  lane : Half
  consec : Nat
  totalUnder : Nat
  clipCount : Nat
  list : List Entry
  stat : StaticParams
  live : LiveParams
  staged : PendingRec
  scaled : Int
  clipOpen : Bool
  out : Sample
  cursor : Option Cursor
  fifo : List Item
  target : Option EntryIx
  underrun : Bool
  passStalled : Bool
  startLatch : Bool
  advLatch : Bool
  updLatch : Bool
  mk1 : Marker
  mk2 : Marker
  deriving DecidableEq, Repr

/-- A channel after a device reset (R41, R57, R83, R84, R86, R100, R123, R128, R138, R139). -/
def Chan.reset : Chan where
  state := .idle
  entry := 0
  pass := 0#16
  pos := 0
  stop := none
  jump := none
  startPending := false
  startRequest := false
  fault := none
  lane := 32768#16
  consec := 0
  totalUnder := 0
  clipCount := 0
  list := []
  stat := ⟨1, .linear, .alone, .stop, 0#16, 0#16, 3, none, none, none⟩
  live := ⟨16384#16, 0#16, 65536, 0#16, 0#16⟩
  staged := .empty
  scaled := 0
  clipOpen := false
  out := 0#16
  cursor := none
  fifo := []
  target := none
  underrun := false
  passStalled := false
  startLatch := false
  advLatch := false
  updLatch := false
  mk1 := .reset
  mk2 := .reset

/-- A claim record (R150). -/
structure Claim where
  controller : Option Port
  yieldable : Bool
  deriving DecidableEq, Repr

/-! ### Clock, arbiter, triggers (04, 06, 07) -/

/-- Clock states (R78). -/
inductive ClockState where
  | present
  | lost
  deriving DecidableEq, Repr

/-- The Sample Clock Monitor (R78, R79). `sinceEdge` is the time without a rising edge of SCLK, in REFCLK periods up to
250, and `sclkRuns` says that it is below 250 since some edge: what R78 measures (log 8). -/
structure Monitor where
  clock : ClockState
  runLength : Nat
  align : Nat
  sinceEdge : Nat
  sclkRuns : Bool
  deriving DecidableEq, Repr

/-- Whether a channel has an output tick at the present SCLK edge (R79): none, due and not yet taken, or taken, with the
value the partner's adder sees at this tick (R95). The model's own record (log 5). -/
inductive TickStatus where
  | noTick
  | due
  | done (h : Int)
  deriving DecidableEq, Repr

/-- The Store Arbiter (R114). -/
structure Arbiter where
  rot : Vector ChanId 4
  passOver : PerPort Nat
  lastServed : Port
  deriving DecidableEq, Repr

/-- Edge modes (R120). -/
inductive EdgeMode where
  | off
  | rising
  | falling
  | both
  deriving DecidableEq, Repr

/-! ### Ports and events (10, 11) -/

/-- The 29 status codes (10.6). -/
inductive Status where
  | ok
  | clamped
  | short
  | tooShort
  | oversize
  | applyMoved
  | dataSuspect
  | busy
  | badFrame
  | unknownCommand
  | badArgument
  | badIndex
  | notController
  | claimedElsewhere
  | notOwner
  | notVisible
  | channelState
  | channelActive
  | segmentState
  | noSpace
  | noLoad
  | loadOpen
  | listFull
  | emptyList
  | noSource
  | partnerRate
  | partnerBound
  | stopPending
  | noClock
  deriving DecidableEq, Repr

/-- A response frame (R171) with its read position (R165): code echo, status, flags byte and payload. -/
structure Response where
  echo : Byte
  status : Status
  flags : Byte
  payload : List Byte
  pos : Nat
  deriving DecidableEq, Repr

/-- Port protocol states (R165). -/
inductive Proto where
  | idle
  | executing
  | ready
  deriving DecidableEq, Repr

/-- The fifteen cause kinds, in the order of their codes (R176). -/
inductive Kind where
  | armed
  | started
  | stopped
  | listDone
  | fault
  | underrun
  | triggerOverrun
  | clip
  | parity
  | applied
  | claimLost
  | clockLost
  | clockRestored
  | segmentFreed
  | sharedChanged
  deriving DecidableEq, Repr

/-- Event sources (R178). -/
inductive EventSource where
  | chan (c : ChanId)
  | device
  deriving DecidableEq, Repr

/-- The detail of an entry (R178). -/
inductive Detail where
  | nothing
  | segment (i : SegId)
  | source (code : Fin 8)
  deriving DecidableEq, Repr

/-- An event-set entry (R178). -/
structure EventEntry where
  source : EventSource
  kind : Kind
  detail : Detail
  multiple : Bool
  deriving DecidableEq, Repr

/-- What one port holds: the protocol record (R165), the level of its PRST line (R172), its event set, kept in the
order in which TAKE-EVENTS reads it (R178, R181), its enable set, bit k for kind code k (R180, R176), and the bytes its
data output shifted out in the last transaction (R164, R170, log 26). -/
structure PortRec where
  proto : Proto
  unread : Option Response
  overrun : Bool
  lost : Bool
  prstHeld : Bool
  events : List EventEntry
  enable : BitVec 15
  lastOut : List Byte
  deriving DecidableEq, Repr

/-- A port after a device reset (R165, R178, R180). -/
def PortRec.reset : PortRec := ⟨.idle, none, false, false, false, [], 0#15, []⟩

/-- A trigger event of a sync line on its way from an output tick to the Trigger Matrix (R135), and the channel whose marker
made it: a loop through that channel's own start subscription has no effect (R137, log 38). -/
structure SyncEvent where
  line : Fin 4
  channel : ChanId
  deriving DecidableEq, Repr

/-! ### The whole part -/

/-- The state of the part. `pending` is the queue of commands waiting to be taken, first in, first out. -/
structure State where
  pending : List Instr
  resetHeld : Bool
  resets : Nat
  mem : Memory
  burst : Option Burst
  pages : Vector PageRec 2048
  freeList : List PageNo
  retired : List PageNo
  segs : Vector SegRec 256
  loads : PerPort LoadUnit
  chans : Vector Chan 8
  claims : Vector Claim 8
  monitor : Monitor
  ticks : Vector TickStatus 8
  arb : Arbiter
  judged : Vector Bool 4
  modes : Vector EdgeMode 8
  syncEvents : List SyncEvent
  drivers : Vector (Option (ChanId × MkUnit)) 4
  ports : PerPort PortRec
  deriving DecidableEq, Repr

/-- The part right after a device reset and the release of RESET, with the TRG pins low and the PRST lines released
(log 1): every field as its rule gives it. -/
def State.reset : State where
  pending := []
  resetHeld := false
  resets := 0
  mem := []
  burst := none
  pages := Vector.replicate 2048 ⟨.free, false⟩
  freeList := List.finRange 2048
  retired := []
  segs := Vector.replicate 256 .freed
  loads := ⟨.empty, .empty⟩
  chans := Vector.replicate 8 .reset
  claims := Vector.replicate 8 ⟨none, false⟩
  monitor := ⟨.lost, 0, 0, 0, false⟩
  ticks := Vector.replicate 8 .noTick
  arb := ⟨Vector.replicate 4 0, ⟨0, 0⟩, .b⟩
  judged := Vector.replicate 4 false
  modes := Vector.replicate 8 .off
  syncEvents := []
  drivers := Vector.replicate 4 none
  ports := ⟨.reset, .reset⟩

/-! ### Outcomes -/

/-- Reasons to stop with a fault. There are none: every event of the table has an effect the manual gives, or is answered
with a status, or does not occur in the state it meets (log 4). Nothing raises a fault, which is safe. -/
inductive Fault where
  deriving DecidableEq, Repr

/-- Reasons to refuse a command. -/
inductive Refusal where
  /-- Raised by an arm of `exec` whose command has no meaning yet. No arm raises it now. Safe. -/
  | notModelled (mnemonic : String)
  deriving DecidableEq, Repr

end Sys2Proof.Machine
end

