-- ==== Sys2Proof/Machine/Operands.lean ====
section
/-! DEFINITION. Operand forms: how the bytes of a command name channels, masks, enumerations and values (R173), and how the
fields of a response are written as bytes (R173, R174, 10.6). -/

namespace Sys2Proof.Machine

/-! ### Reading operands -/

/-- A channel byte: 0 to 7, or no channel. -/
def chanOf (b : Byte) : Option ChanId :=
  if h : b.toNat < 8 then some ⟨b.toNat, h⟩ else none

/-- A segment id: every byte is one (R17). -/
def segOf (b : Byte) : SegId := ⟨b.toNat, b.isLt⟩

/-- The channels of a mask, in ascending order: bit c names channel c (R173). -/
def maskChans (m : Byte) : List ChanId := (List.finRange 8).filter fun c => m.getLsbD c.val

/-- The mask of the channels that satisfy a condition. -/
def maskOf (f : ChanId → Bool) : Byte :=
  (List.finRange 8).foldl (fun m c => if f c then m ||| (1#8 <<< c.val) else m) 0#8

def visOf (b : Byte) : Option Visibility :=
  if b = 0#8 then some .ownerOnly else if b = 1#8 then some .shared else none

def dirOf (b : Byte) : Option Direction :=
  if b = 0#8 then some .forward else if b = 1#8 then some .reverse else if b = 2#8 then some .pingpong else none

/-- The next byte of an entry record (R174): FFh absent, 0 to 63 present; 64 to 254 name no index (R48 check 3). -/
def nextOf (b : Byte) : Option (Option EntryIx) :=
  if b = 0xFF#8 then some none
  else if h : b.toNat < 64 then some (some ⟨b.toNat, h⟩) else none

/-- An entry record whose direction and next pass check 3 of R48. -/
def entryOf (e : EntryArg) : Option Entry :=
  match dirOf e.direction, nextOf e.next with
  | some d, some n => some ⟨segOf e.segment, e.repeats, d, e.wait, e.leave, e.mk1, e.mk2, n⟩
  | _, _ => none

def stopModeOf (b : Byte) : Option StopPoint :=
  if b = 0#8 then some .immediate else if b = 1#8 then some .atPass else if b = 2#8 then some .atListEnd else none

def pointOf (b : Byte) : Option ApplyPoint :=
  if b = 0#8 then some .now else if b = 1#8 then some .pass else if b = 2#8 then some .entry
  else if b = 3#8 then some .trigger else none

def interpOf (b : Byte) : Option Interp :=
  if b = 0#8 then some .hold else if b = 1#8 then some .linear else none

def combineOf (b : Byte) : Option Combine :=
  if b = 0#8 then some .alone else if b = 1#8 then some .addPartner else none

def endModeOf (b : Byte) : Option EndMode :=
  if b = 0#8 then some .stop else if b = 1#8 then some .loop else none

/-- A subscription's source byte: TRG0 to TRG3 0 to 3, SYN0 to SYN3 4 to 7, SOFT-A 8, SOFT-B 9, NONE FFh. -/
def subscriptionOf (b : Byte) : Option (Option Source) :=
  if b = 0xFF#8 then some none
  else if h : b.toNat < 4 then some (some (.trg ⟨b.toNat, h⟩))
  else if h : b.toNat < 8 then some (some (.syn ⟨b.toNat - 4, by omega⟩))
  else if b = 8#8 then some (some (.soft .a))
  else if b = 9#8 then some (some (.soft .b))
  else none

/-- A source with an edge mode: 0 to 7 (R121). -/
def edgeSourceOf (b : Byte) : Option (Fin 8) :=
  if h : b.toNat < 8 then some ⟨b.toNat, h⟩ else none

def edgeModeOf (b : Byte) : Option EdgeMode :=
  if b = 0#8 then some .off else if b = 1#8 then some .rising else if b = 2#8 then some .falling
  else if b = 3#8 then some .both else none

def unitOf (b : Byte) : Option MkUnit :=
  if b = 0#8 then some .mk1 else if b = 1#8 then some .mk2 else none

def markerModeOf (b : Byte) : Option MarkerMode :=
  if b = 0#8 then some .off else if b = 1#8 then some .entry else if b = 2#8 then some .pass
  else if b = 3#8 then some .level else none

def polarityOf (b : Byte) : Option Polarity :=
  if b = 0#8 then some .normal else if b = 1#8 then some .inverted else none

def lineOf (b : Byte) : Option (Fin 4) :=
  if h : b.toNat < 4 then some ⟨b.toNat, h⟩ else none

/-- A driver of a sync line (R173): channel FFh is NONE whatever the unit byte (log 20). -/
def driverOf (d : DriverArg) : Option (Option (ChanId × MkUnit)) :=
  if d.channel = 0xFF#8 then some none
  else match chanOf d.channel, unitOf d.unit with
    | some c, some u => some (some (c, u))
    | _, _ => none

/-- An optional operand whose value must be one of the named ones: absent passes. -/
def optOf {α : Type} (f : Byte → Option α) : Option Byte → Option (Option α)
  | none => some none
  | some b => (f b).map some

/-- A numeric operand set to the nearest bound, and whether it was (R82, R129). -/
def clampNat (lo hi n : Nat) : Nat × Bool :=
  if n < lo then (lo, true) else if hi < n then (hi, true) else (n, false)

/-- A signed long set to the nearest bound of a signed 16-bit parameter (R140). -/
def clampSample (w : Long) : Sample × Bool :=
  if w.toInt < -32768 then (BitVec.ofInt 16 (-32768), true)
  else if 32767 < w.toInt then (BitVec.ofInt 16 32767, true)
  else (BitVec.ofInt 16 w.toInt, false)

/-- A signed long set to the nearest bound of the step, 1 to 1048576 (R140). -/
def clampStep (w : Long) : Nat × Bool :=
  if w.toInt < 1 then (1, true) else if 1048576 < w.toInt then (1048576, true) else (w.toInt.toNat, false)

/-! ### Writing fields of responses -/

/-- A word field of a count (R173). -/
def putWord (n : Nat) : List Byte := putHalf (BitVec.ofNat 16 n)

/-- A long field of a count (R173). -/
def putLongNat (n : Nat) : List Byte := putLong (BitVec.ofNat 32 n)

/-- A byte field of a count. -/
def byteOfNat (n : Nat) : Byte := BitVec.ofNat 8 n

def Port.code : Port → Byte
  | .a => 1#8
  | .b => 2#8

def controllerCode : Option Port → Byte
  | none => 0#8
  | some p => Port.code p

def SegState.code : SegState → Byte
  | .free => 0#8
  | .loading => 1#8
  | .ready => 2#8
  | .doomed => 3#8

def Visibility.code : Visibility → Byte
  | .ownerOnly => 0#8
  | .shared => 1#8

def LoadPhase.code : LoadPhase → Byte
  | .noLoad => 0#8
  | .opened => 1#8
  | .aborting => 2#8

def Direction.code : Direction → Byte
  | .forward => 0#8
  | .reverse => 1#8
  | .pingpong => 2#8

def ChanState.code : ChanState → Byte
  | .idle => 0#8
  | .arming => 1#8
  | .armed => 2#8
  | .running => 3#8
  | .waiting => 4#8
  | .stopping => 5#8
  | .halted => 6#8

def StopPoint.code : StopPoint → Byte
  | .immediate => 0#8
  | .atPass => 1#8
  | .atListEnd => 2#8

def FaultCause.code : FaultCause → Byte
  | .starved => 0#8
  | .clockLost => 1#8

def Interp.code : Interp → Byte
  | .hold => 0#8
  | .linear => 1#8

def Combine.code : Combine → Byte
  | .alone => 0#8
  | .addPartner => 1#8

def EndMode.code : EndMode → Byte
  | .stop => 0#8
  | .loop => 1#8

def ApplyPoint.code : ApplyPoint → Byte
  | .now => 0#8
  | .pass => 1#8
  | .entry => 2#8
  | .trigger => 3#8

def Source.code : Source → Byte
  | .trg n => byteOfNat n.val
  | .syn n => byteOfNat (4 + n.val)
  | .soft .a => 8#8
  | .soft .b => 9#8

def subscriptionCode : Option Source → Byte
  | none => 0xFF#8
  | some s => s.code

def EdgeMode.code : EdgeMode → Byte
  | .off => 0#8
  | .rising => 1#8
  | .falling => 2#8
  | .both => 3#8

def unitCode : MkUnit → Byte
  | .mk1 => 0#8
  | .mk2 => 1#8

def MarkerMode.code : MarkerMode → Byte
  | .off => 0#8
  | .entry => 1#8
  | .pass => 2#8
  | .level => 3#8

def Polarity.code : Polarity → Byte
  | .normal => 0#8
  | .inverted => 1#8

/-- Status codes (10.6). -/
def Status.code : Status → Byte
  | .ok => 0x00#8
  | .clamped => 0x01#8
  | .short => 0x02#8
  | .tooShort => 0x03#8
  | .oversize => 0x04#8
  | .applyMoved => 0x05#8
  | .dataSuspect => 0x06#8
  | .busy => 0x10#8
  | .badFrame => 0x11#8
  | .unknownCommand => 0x12#8
  | .badArgument => 0x13#8
  | .badIndex => 0x14#8
  | .notController => 0x15#8
  | .claimedElsewhere => 0x16#8
  | .notOwner => 0x17#8
  | .notVisible => 0x18#8
  | .channelState => 0x19#8
  | .channelActive => 0x1A#8
  | .segmentState => 0x1B#8
  | .noSpace => 0x1C#8
  | .noLoad => 0x1D#8
  | .loadOpen => 0x1E#8
  | .listFull => 0x1F#8
  | .emptyList => 0x20#8
  | .noSource => 0x21#8
  | .partnerRate => 0x22#8
  | .partnerBound => 0x23#8
  | .stopPending => 0x24#8
  | .noClock => 0x25#8

/-- Kind codes (R176). -/
def Kind.code : Kind → Nat
  | .armed => 0
  | .started => 1
  | .stopped => 2
  | .listDone => 3
  | .fault => 4
  | .underrun => 5
  | .triggerOverrun => 6
  | .clip => 7
  | .parity => 8
  | .applied => 9
  | .claimLost => 10
  | .clockLost => 11
  | .clockRestored => 12
  | .segmentFreed => 13
  | .sharedChanged => 14

/-- Event sources as R176 carries them: CH0 to CH7 0 to 7, DEVICE 8. -/
def EventSource.code : EventSource → Nat
  | .chan c => c.val
  | .device => 8

/-- The detail byte of R176: 0 where there is none. -/
def Detail.code : Detail → Byte
  | .nothing => 0#8
  | .segment i => byteOfNat i.val
  | .source n => byteOfNat n.val

/-- The 3 bytes of an event entry (R176). -/
def EventEntry.bytes (e : EventEntry) : List Byte :=
  [byteOfNat e.source.code, (if e.multiple then 0x80#8 else 0#8) ||| byteOfNat e.kind.code, e.detail.code]

/-- The 6 bytes of an entry record (R174). -/
def Entry.bytes (e : Entry) : List Byte :=
  byteOfNat e.seg.val :: putHalf e.repeats ++
    [e.dir.code, putEntryFlags e.wait e.leave e.mk1 e.mk2,
      match e.next with
      | none => 0xFF#8
      | some t => byteOfNat t.val]

/-- A driver as R173 carries it: NONE is channel FFh, with unit byte 00h (log 20). -/
def driverBytes : Option (ChanId × MkUnit) → List Byte
  | none => [0xFF#8, 0x00#8]
  | some (c, u) => [byteOfNat c.val, unitCode u]

end Sys2Proof.Machine
end

