-- ==== Sys2Proof/Machine/Flags.lean ====
section
/-! DEFINITION. Flags and levels that are computed from the state: parity (R2), the flags byte of a response (R171), RDY
and ATTN (R165, R180), marker pins (R134), sync lines (R135) and which level changes count (R120). -/

namespace Sys2Proof.Machine

/-- How many of the 16 bits of a sample are 1. -/
def ones (v : Half) : Nat := (List.range 16).countP fun i => v.getLsbD i

/-- The parity bit of a written slot: the 17 bits hold an even number of 1s (R2). -/
def parityOf (v : Half) : Bool := decide (ones v % 2 = 1)

/-- A slot as a write leaves it (R12). -/
def writtenSlot (v : Half) : Slot := ⟨v, parityOf v⟩

/-- The verdict of a read: an odd count of 1s in the 17 bits is a parity error (R2). -/
def Slot.bad (s : Slot) : Bool := decide ((ones s.value + s.parity.toNat) % 2 = 1)

/-- The flags byte (10.4): bit 0 OVERRUN, bit 1 RESPONSE-LOST, bit 2 ATTN-PENDING. -/
def flagsByte (overrun lost attnPending : Bool) : Byte :=
  (if overrun then 0x01#8 else 0#8) ||| (if lost then 0x02#8 else 0#8) ||| (if attnPending then 0x04#8 else 0#8)

/-- The event set holds an entry of a kind in the enable set (R180). -/
def PortRec.enabledPending (r : PortRec) : Bool := r.events.any fun e => r.enable.getLsbD e.kind.code

/-- The ATTN line (R180): held deasserted while RESET or the port's PRST is asserted. -/
def attn (resetHeld : Bool) (r : PortRec) : Bool := !resetHeld && !r.prstHeld && r.enabledPending

/-- The RDY line (R165): asserted in RESPONSE-READY, held deasserted while RESET or the port's PRST is asserted. -/
def rdy (resetHeld : Bool) (r : PortRec) : Bool := !resetHeld && !r.prstHeld && decide (r.proto = .ready)

/-- The level of a marker pin (R134). -/
def Marker.pin (m : Marker) : Bool :=
  match m.polarity with
  | .normal => m.active
  | .inverted => !m.active

/-- Whether a change of a level to `level` is a trigger event under an edge mode (R120). -/
def EdgeMode.counts (m : EdgeMode) (level : Bool) : Bool :=
  match m with
  | .off => false
  | .rising => level
  | .falling => !level
  | .both => true

end Sys2Proof.Machine
end

