-- ==== Sys2Proof/Machine/Ops.lean ====
section
/-! DEFINITION. The named operations over the state: accessors, the store's slots (R1, R2, R12), event sets (R178, R179),
responses (R165 to R171), and the working context `Work` of one channel's event. -/

namespace Sys2Proof.Machine

/-! ### Accessors -/

def PerPort.get {α : Type} (x : PerPort α) : Port → α
  | .a => x.a
  | .b => x.b

def PerPort.set {α : Type} (x : PerPort α) (p : Port) (v : α) : PerPort α :=
  match p with
  | .a => { x with a := v }
  | .b => { x with b := v }

def State.port (s : State) (p : Port) : PortRec := s.ports.get p
def State.setPort (s : State) (p : Port) (r : PortRec) : State := { s with ports := s.ports.set p r }
def State.loadUnit (s : State) (p : Port) : LoadUnit := s.loads.get p
def State.setLoad (s : State) (p : Port) (u : LoadUnit) : State := { s with loads := s.loads.set p u }
def State.chan (s : State) (c : ChanId) : Chan := s.chans.get c
def State.setChan (s : State) (c : ChanId) (ch : Chan) : State := { s with chans := s.chans.set c ch }
def State.seg (s : State) (i : SegId) : SegRec := s.segs.get i
def State.setSeg (s : State) (i : SegId) (r : SegRec) : State := { s with segs := s.segs.set i r }
def State.page (s : State) (n : PageNo) : PageRec := s.pages.get n
def State.setPage (s : State) (n : PageNo) (r : PageRec) : State := { s with pages := s.pages.set n r }
def State.claimOf (s : State) (c : ChanId) : Claim := s.claims.get c
def State.setClaim (s : State) (c : ChanId) (r : Claim) : State := { s with claims := s.claims.set c r }
def State.tickOf (s : State) (c : ChanId) : TickStatus := s.ticks.get c
def State.setTick (s : State) (c : ChanId) (t : TickStatus) : State := { s with ticks := s.ticks.set c t }
def State.setPassOver (s : State) (p : Port) (n : Nat) : State :=
  { s with arb := { s.arb with passOver := s.arb.passOver.set p n } }

/-- The port controls the channel (R150). -/
def State.controls (s : State) (p : Port) (c : ChanId) : Bool := decide ((s.claimOf c).controller = some p)

/-- The partner of a channel: the number differs in the lowest bit (00_scope). -/
def partner (c : ChanId) : ChanId := if c.val % 2 = 0 then c + 1 else c - 1

def Chan.unit (ch : Chan) : MkUnit → Marker
  | .mk1 => ch.mk1
  | .mk2 => ch.mk2

def Chan.setUnit (ch : Chan) (u : MkUnit) (m : Marker) : Chan :=
  match u with
  | .mk1 => { ch with mk1 := m }
  | .mk2 => { ch with mk2 := m }

/-- RUNNING, WAITING or STOPPING. -/
def ChanState.playing : ChanState → Bool
  | .running | .waiting | .stopping => true
  | .idle | .arming | .armed | .halted => false

/-- ARMING, ARMED, RUNNING, WAITING or STOPPING: the states in which the list is held fixed (R64). -/
def ChanState.active : ChanState → Bool
  | .arming | .armed | .running | .waiting | .stopping => true
  | .idle | .halted => false

/-! ### The store's slots -/

/-- The slot written last at an address, if one was since the device reset. -/
def Memory.find : Memory → Nat → Option Slot
  | [], _ => none
  | (k, v) :: r, a => if k = a then some v else Memory.find r a

/-- A slot as a read finds it (R13): what was written last, else unspecified (R1, log 2). -/
def State.slot (s : State) (addr : Nat) : Slot :=
  (s.mem.find addr).getD (Config.unwrittenSlot s.resets addr)

/-- One slot written: the addresses stay strictly rising. -/
def Memory.write : Memory → Nat → Slot → Memory
  | [], a, x => [(a, x)]
  | (k, v) :: r, a, x =>
    if a = k then (k, x) :: r else if a < k then (a, x) :: (k, v) :: r else (k, v) :: Memory.write r a x

/-- One slot disturbed (R2, log 3). A slot that was never written stays a free value. -/
def Memory.upset (m : Memory) (u : Upset) : Memory :=
  match m.find u.addr with
  | some x => m.write u.addr (x.flip u.mask)
  | none => m

/-- Every address of the list is above a bound. -/
def Memory.above : Memory → Nat → Bool
  | [], _ => true
  | (k, _) :: r, a => decide (a < k) && Memory.above r a

/-- The canonical form: addresses strictly rising. -/
def Memory.wf : Memory → Bool
  | [] => true
  | (k, _) :: r => Memory.above r k && Memory.wf r

/-- The address of a slot of a page. -/
def slotAddr (page : PageNo) (slot : Nat) : Nat := page.val * 256 + slot

/-- The slots a burst names, in its order (R11). -/
def Burst.slots (b : Burst) : List Nat :=
  (List.range b.count).map fun j => if b.ascending then b.first + j else b.first - j

/-- Completion of a write burst: each named slot takes its value, in slot order (R12). -/
def writeSlots (page : PageNo) : Memory → List Nat → List Sample → Memory
  | m, slot :: slots, v :: vs => writeSlots page (m.write (slotAddr page slot) (writtenSlot v)) slots vs
  | m, _, _ => m

/-- What a read burst delivers: the slots as held, in the burst's order (R13). -/
def State.readSlots (s : State) (b : Burst) : List Slot := b.slots.map fun slot => s.slot (slotAddr b.page slot)

/-! ### Event sets (R178, R179) -/

/-- The place of an entry in the order of R181: source, then kind code. -/
def eventKey (src : EventSource) (k : Kind) : Nat := src.code * 16 + k.code

def EventEntry.key (e : EventEntry) : Nat := eventKey e.source e.kind

/-- A cause delivered to one event set (R179): a new entry, or the MULTIPLE mark on the one that stands. -/
def raiseIn : List EventEntry → EventSource → Kind → Detail → List EventEntry
  | [], src, k, d => [⟨src, k, d, false⟩]
  | e :: r, src, k, d =>
    if e.key = eventKey src k then { e with multiple := true } :: r
    else if eventKey src k < e.key then ⟨src, k, d, false⟩ :: e :: r
    else e :: raiseIn r src k d

/-- The cause delivered to one port. -/
def State.raiseTo (s : State) (p : Port) (src : EventSource) (k : Kind) (d : Detail) : State :=
  s.setPort p { s.port p with events := raiseIn (s.port p).events src k d }

/-- The cause delivered to both ports. -/
def State.raiseBoth (s : State) (src : EventSource) (k : Kind) : State :=
  (s.raiseTo .a src k .nothing).raiseTo .b src k .nothing

/-- Channel causes delivered to both ports, one after another. -/
def State.raiseAll (s : State) (c : ChanId) (ks : List Kind) : State :=
  ks.foldl (fun t k => t.raiseBoth (.chan c) k) s

/-! ### Responses (R165 to R171) -/

/-- A response formed (R171): flags copied and cleared, ATTN-PENDING from the event set as it stands, the port in
RESPONSE-READY. -/
def State.respond (s : State) (p : Port) (echo : Byte) (st : Status) (payload : List Byte) : State :=
  let r := s.port p
  s.setPort p
    { r with
      proto := .ready
      unread := some ⟨echo, st, flagsByte r.overrun r.lost (!r.events.isEmpty), payload, 0⟩
      overrun := false
      lost := false }

/-- The bytes of a response frame (10.4). -/
def Response.bytes (r : Response) : List Byte :=
  0x5A#8 :: (let body := r.echo :: r.status.code :: r.flags :: (putHalf (BitVec.ofNat 16 r.payload.length) ++ r.payload)
    body ++ putHalf (crc16 body))

/-- Whole bytes of a command transaction clocked on a port: data output shifts out 00h for every one of them (R164). -/
def State.clockOut (s : State) (p : Port) (clocked : Nat) : State :=
  s.setPort p { s.port p with lastOut := List.replicate clocked 0x00#8 }

/-- A command frame of `clocked` whole bytes released on a port. It is not seen while RESET or the port's PRST is asserted
(R165, R172). In EXECUTING it is discarded and OVERRUN set (R168). In RESPONSE-READY the unread response is discarded
first and RESPONSE-LOST set (R169). Then the command acts. -/
def onPort (p : Port) (clocked : Nat) (s : State) (act : State → State) : State :=
  if s.resetHeld || (s.port p).prstHeld then s
  else
    let s1 := s.clockOut p clocked
    let r := s1.port p
    match r.proto with
    | .executing => s1.setPort p { r with overrun := true }
    | .ready => act (s1.setPort p { r with proto := .idle, unread := none, lost := true })
    | .idle => act s1

/-! ### The context of one channel's event -/

/-- What an event of one channel can touch: the channel, the burst in flight (to mark it DROP) and the causes it raises. -/
structure Work where
  ch : Chan
  burst : Option Burst
  raised : List Kind
  deriving DecidableEq, Repr

def State.work (s : State) (c : ChanId) : Work := ⟨s.chan c, s.burst, []⟩

/-- The event's results put back, its causes delivered to both ports (R179). -/
def State.putWork (s : State) (c : ChanId) (w : Work) : State :=
  ({ s.setChan c w.ch with burst := w.burst }).raiseAll c w.raised

def Work.raise (w : Work) (k : Kind) : Work := { w with raised := w.raised ++ [k] }

/-- The burst in flight is this channel's. -/
def Burst.isOf (b : Burst) (c : ChanId) : Bool := decide (b.requester = .fetcher c)

/-- The burst in flight, if it is this channel's. -/
def ownBurst (c : ChanId) : Option Burst → Option Burst
  | some b => if b.isOf c then some b else none
  | none => none

/-- The channel's burst in flight is marked DROP (R113). -/
def dropBurst (c : ChanId) : Option Burst → Option Burst
  | some b => if b.isOf c then some { b with keep := false } else some b
  | none => none

/-- The lane word set to a level plus 32768, and the output value with it (R58, R86, R99). -/
def Chan.place (ch : Chan) (v : Sample) : Chan := { ch with out := v, lane := BitVec.ofInt 16 (v.toInt + 32768) }

end Sys2Proof.Machine
end

