-- ==== Sys2Proof/Machine/Live.lean ====
section
/-! DEFINITION. Pending records (08_live_parameters_and_apply_points): staging is in the meaning of SET-LIVE, applying is
here (R143 to R148). -/

namespace Sys2Proof.Machine

/-- A record with no field present (R139). -/
def PendingRec.isEmpty (r : PendingRec) : Bool :=
  r.gain.isNone && r.offset.isNone && r.step.isNone && r.th1.isNone && r.th2.isNone

/-- The live parameters with the present fields of a record written over them (R143). -/
def LiveParams.overwrite (l : LiveParams) (r : PendingRec) : LiveParams where
  gain := r.gain.getD l.gain
  offset := r.offset.getD l.offset
  step := r.step.getD l.step
  th1 := r.th1.getD l.th1
  th2 := r.th2.getD l.th2

/-- Applying the pending record (R143): in one step, raising APPLIED; an empty record does nothing. -/
def Work.applyStaged (w : Work) : Work :=
  if w.ch.staged.isEmpty then w
  else ({ w with ch := { w.ch with live := w.ch.live.overwrite w.ch.staged, staged := .empty } }).raise .applied

/-- What comes first in an output tick of a playing channel: the update latch is cleared, and the record applied if its
group request is set (R147), its point is NOW (R144), or its point is TRIGGER and the latch was set (R127, R146). -/
def Work.startOfTick (w : Work) : Work :=
  let latched := w.ch.updLatch
  let w1 : Work := { w with ch := { w.ch with updLatch := false } }
  if w.ch.staged.group || decide (w.ch.staged.point = some .now)
      || (latched && decide (w.ch.staged.point = some .trigger)) then w1.applyStaged
  else w1

/-- The record applied at a pass start that is no entry start: point PASS (R145). -/
def Work.applyAtPass (w : Work) : Work :=
  if w.ch.staged.point = some .pass then w.applyStaged else w

/-- The record applied at an entry start: point PASS or ENTRY (R145). -/
def Work.applyAtEntry (w : Work) : Work :=
  if w.ch.staged.point = some .pass ∨ w.ch.staged.point = some .entry then w.applyStaged else w

end Sys2Proof.Machine
end

