-- ==== Sys2Proof/Machine/Markers.lean ====
section
/-! DEFINITION. Marker units (07_triggers_markers_and_sync_lines, R128 to R134): pulses, counting, the LEVEL comparator. -/

namespace Sys2Proof.Machine

/-- A pulse started at an entry start, in mode ENTRY or PASS, when the entry's flag for the unit is set (R130). -/
def Marker.pulseAtEntry (m : Marker) (flag : Bool) : Marker :=
  if flag && (decide (m.mode = .entry) || decide (m.mode = .pass)) then { m with remaining := m.width } else m

/-- A pulse started at a later pass start, in mode PASS (R130). -/
def Marker.pulseAtPass (m : Marker) (flag : Bool) : Marker :=
  if flag && decide (m.mode = .pass) then { m with remaining := m.width } else m

/-- One counted tick of a unit in mode ENTRY or PASS (R131). -/
def Marker.countTick (m : Marker) : Marker :=
  if m.mode = .entry ∨ m.mode = .pass then
    if 0 < m.remaining then { m with active := true, remaining := m.remaining - 1 } else { m with active := false }
  else m

/-- The comparator of a unit in mode LEVEL at a computed tick (R132): `out` and threshold as integers. -/
def Marker.compareLevel (m : Marker) (out threshold : Int) : Marker :=
  if m.mode = .level then
    if threshold ≤ out then { m with active := true }
    else if out < threshold - m.hyst then { m with active := false }
    else m
  else m

/-- A unit made inactive with remaining 0 (R133). -/
def Marker.silence (m : Marker) : Marker := { m with active := false, remaining := 0 }

/-- Both units count the tick (R131). -/
def Chan.countMarkers (ch : Chan) : Chan := { ch with mk1 := ch.mk1.countTick, mk2 := ch.mk2.countTick }

/-- Both units compare the tick's output, each with its own threshold (R132). -/
def Chan.compareMarkers (ch : Chan) (out : Int) : Chan :=
  { ch with mk1 := ch.mk1.compareLevel out ch.live.th1.toInt, mk2 := ch.mk2.compareLevel out ch.live.th2.toInt }

/-- Both units made inactive, on entering IDLE or HALTED (R133). -/
def Chan.silenceMarkers (ch : Chan) : Chan := { ch with mk1 := ch.mk1.silence, mk2 := ch.mk2.silence }

end Sys2Proof.Machine
end

