-- ==== Sys2Proof/Machine/Samples.lean ====
section
/-! DEFINITION. The arithmetic of the Sample Path (05_sample_arithmetic). Values are integers, formed exactly; `/` on
integers with a positive divisor is the floor of the quotient. -/

namespace Sys2Proof.Machine

/-- Interpolation (R92): `f` is the fraction of the position. -/
def interpolate (m : Interp) (a b : Int) (f : Nat) : Int :=
  match m with
  | .linear => a + ((b - a) * f + 32768) / 65536
  | .hold => a

/-- The scaled value g (R93). -/
def scale (r gain : Int) : Int := (r * gain + 8192) / 16384

/-- The sum v (R94). -/
def sumWith (m : Combine) (g offset h : Int) : Int :=
  match m with
  | .alone => g + offset
  | .addPartner => g + offset + h

/-- The output (R96): the nearest value of the sample range. -/
def saturate (v : Int) : Int := if 32767 < v then 32767 else if v < -32768 then -32768 else v

/-- The integer part of a position (R88). -/
def posIndex (pos : Nat) : Nat := pos / 65536

/-- The fraction of a position in 65536ths (R88). -/
def posFrac (pos : Nat) : Nat := pos % 65536

/-- The scaled value a channel computes at a tick from the two fetched samples (R92, R93). -/
def Chan.scaledAt (ch : Chan) (a b : Sample) : Int :=
  scale (interpolate ch.stat.interp a.toInt b.toInt (posFrac ch.pos)) ch.live.gain.toInt

end Sys2Proof.Machine
end

