-- ==== Sys2Proof/Machine/Walk.lean ====
section
/-! DEFINITION. The walk of a sequence list (R43, R44), the translation of indices (R15), the fetch cursor (R103), the
FIFO (R106, R107) and the flush (R113). -/

namespace Sys2Proof.Machine

/-- The entry at an index. -/
def Chan.entryAt (ch : Chan) (j : EntryIx) : Option Entry := ch.list[j.val]?

/-- The pass of an entry is played in reverse (R43). -/
def Entry.reversed (e : Entry) (pass : Half) : Bool :=
  match e.dir with
  | .forward => false
  | .reverse => true
  | .pingpong => pass.getLsbD 0

/-- The stored index of a play-order index (R15). -/
def storedIndex (rev : Bool) (length q : Nat) : Nat := if rev then length - 1 - q else q

/-- The successor of entry j, or none at list end (R44). -/
def successor (list : List Entry) (j : EntryIx) : Option EntryIx :=
  match list[j.val]? with
  | none => none
  | some e =>
    match e.next with
    | some t => some t
    | none => if h : j.val + 1 < 64 then (if j.val + 1 < list.length then some ⟨j.val + 1, h⟩ else none) else none

/-- More passes follow the pass in which `played` passes have been played (R43, R69 case 4). -/
def Entry.morePasses (e : Entry) (played : Nat) : Bool := decide (e.repeats = 0#16) || decide (played < e.repeats.toNat)

/-- List end is passed by LOOP unless the stop point is AT-LIST-END (R70, R103). -/
def Chan.loops (ch : Chan) : Bool := decide (ch.stat.endMode = .loop) && decide (ch.stop ≠ some .atListEnd)

/-- The cursor at the end of the pass it is in (R103). -/
def Chan.cursorPastPass (ch : Chan) (cur : Cursor) : Chan :=
  match ch.target with
  | some t => { ch with cursor := some ⟨t, 0#16, 0⟩, target := none }
  | none =>
    match ch.entryAt cur.entry with
    | none => { ch with cursor := none }
    | some e =>
      if e.morePasses (cur.pass.toNat + 1) then { ch with cursor := some ⟨cur.entry, cur.pass + 1#16, 0⟩ }
      else match successor ch.list cur.entry with
        | some j => { ch with cursor := some ⟨j, 0#16, 0⟩ }
        | none => { ch with cursor := if ch.loops then some ⟨0, 0#16, 0⟩ else none }

/-- The cursor moved forward by a burst of n in a pass of a segment of the given length (R103). -/
def Chan.moveCursor (ch : Chan) (cur : Cursor) (n length : Nat) : Chan :=
  if cur.index + n < length then { ch with cursor := some { cur with index := cur.index + n } }
  else ch.cursorPastPass cur

/-- Items of the pass run below an index, removed from the head (R106 step 1). -/
def dropBelow (i : Nat) : List Item → List Item
  | [] => []
  | it :: r => if it.index < i then (if it.last then r else dropBelow i r) else it :: r

/-- What follows the first last-of-pass item, or none if no item has the mark: the FIFO without its pass run (R101). -/
def afterPassRun : List Item → Option (List Item)
  | [] => none
  | it :: r => if it.last then some r else afterPassRun r

/-- The pass run of a FIFO that holds the pass's last item (R101). -/
def passRun : List Item → List Item
  | [] => []
  | it :: r => if it.last then [it] else it :: passRun r

/-- The FIFO item of play-order index q of the current pass. -/
def Chan.isItem (ch : Chan) (it : Item) (q : Nat) : Bool :=
  decide (it.entry = ch.entry) && decide (it.pass = ch.pass) && decide (it.index = q)

/-- The values a and b of the sample fetch (R91), or none when the needed items are not at the head (R106). -/
def Chan.fetchPair (ch : Chan) (length : Nat) : Option (Sample × Sample) :=
  let i := posIndex ch.pos
  match ch.fifo with
  | [] => none
  | it :: r =>
    if ch.isItem it i then
      if ch.stat.interp = .linear ∧ i + 1 < length then
        match r with
        | [] => none
        | nx :: _ => if ch.isItem nx (i + 1) then some (it.value, nx.value) else none
      else some (it.value, it.value)
    else none

/-- A flush (R113). -/
def Work.flush (c : ChanId) (w : Work) : Work :=
  { w with
    ch := { w.ch with fifo := [], cursor := none, target := none, underrun := false, passStalled := false }
    burst := dropBurst c w.burst }

/-- The length of the segment of the current entry (R42, R45). -/
def lengthOf (segs : Vector SegRec 256) (ch : Chan) (j : EntryIx) : Nat :=
  match ch.entryAt j with
  | some e => ((segs.get e.seg).length).getD 0
  | none => 0

/-- The channel's burst in flight, marked KEEP, carries the last item of the pass playback is in (R107, R110). -/
def carriesLast (c : ChanId) (w : Work) : Bool :=
  match ownBurst c w.burst with
  | some b =>
    b.keep && (match b.tag with
      | some t =>
        decide (t.entry = w.ch.entry) && decide (t.pass = w.ch.pass) && decide (t.index + b.count = t.length)
      | none => false)
  | none => false

/-- The drop at a pass end (R107), before the passes-completed counter is read by the cases of R69. -/
def Work.dropPass (c : ChanId) (w : Work) : Work :=
  match afterPassRun w.ch.fifo with
  | some r => { w with ch := { w.ch with fifo := r } }
  | none =>
    let ch1 : Chan := { w.ch with fifo := [] }
    let ch2 : Chan :=
      if carriesLast c w then ch1
      else match ch1.cursor with
        | some cur => ch1.cursorPastPass cur
        | none => ch1
    { w with ch := ch2, burst := dropBurst c w.burst }

/-- Redirection to an entry after a leave, or by a JUMP taken in WAITING (R111, R112). -/
def Work.refetchFrom (c : ChanId) (t : EntryIx) (w : Work) : Work :=
  { w with
    ch := { w.ch with fifo := [], target := none, cursor := some ⟨t, 0#16, 0⟩ }
    burst := dropBurst c w.burst }

/-- Redirection by a JUMP whose target is stored (R110). -/
def Work.jumpRedirect (c : ChanId) (t : EntryIx) (w : Work) : Work :=
  match afterPassRun w.ch.fifo with
  | some _ =>
    { w with
      ch := { w.ch with fifo := passRun w.ch.fifo, cursor := some ⟨t, 0#16, 0⟩, target := none }
      burst := dropBurst c w.burst }
  | none =>
    if carriesLast c w then { w with ch := { w.ch with cursor := some ⟨t, 0#16, 0⟩, target := none } }
    else { w with ch := { w.ch with target := some t } }

end Sys2Proof.Machine
end

