-- ==== Sys2Proof/Machine/Arbiter.lean ====
section
/-! DEFINITION. Requests (R24, R35, R104), grants (R115 to R118) and what a grant does: the burst goes into flight and a
Fetcher's cursor moves past it (R103, R104). -/

namespace Sys2Proof.Machine

/-- The channel's own burst is in flight. -/
def State.fetching (s : State) (c : ChanId) : Bool := (ownBurst c s.burst).isSome

/-- The port's own burst is in flight: a drain or a readback burst. -/
def State.loadBurst (s : State) (p : Port) : Option Burst :=
  match s.burst with
  | some b => if b.requester = .loadUnit p then some b else none
  | none => none

/-- A Fetcher's request is outstanding (R104). -/
def State.fetchRequest (s : State) (c : ChanId) : Bool :=
  let ch := s.chan c
  ch.cursor.isSome && !s.fetching c
    && (if ch.state = .arming then decide (ch.fifo.length < 64) else decide (ch.fifo.length ≤ 32))

/-- A Fetcher's request is urgent (R104). -/
def State.urgent (s : State) (c : ChanId) : Bool :=
  s.fetchRequest c && (s.chan c).state.playing && decide ((s.chan c).fifo.length < 16)

/-- A Load Unit asks for a drain burst (R24). -/
def State.drainRequest (s : State) (p : Port) : Bool :=
  decide ((s.loadUnit p).phase = .opened) && !(s.loadUnit p).buffer.isEmpty && (s.loadBurst p).isNone

/-- A Load Unit asks for a readback burst: the readback is under way and does not wait for the buffer (R34, R35, R37). -/
def State.readRequest (s : State) (p : Port) : Bool :=
  match (s.loadUnit p).readback with
  | some r => decide (r.mark = .live) && (s.loadUnit p).buffer.isEmpty && (s.loadBurst p).isNone
  | none => false

/-- A port's request is outstanding (R114). -/
def State.portRequest (s : State) (p : Port) : Bool := s.drainRequest p || s.readRequest p

/-- Some request is outstanding. -/
def State.anyRequest (s : State) : Bool :=
  (List.finRange 8).any s.fetchRequest || s.portRequest .a || s.portRequest .b

/-- The first requesting channel of one priority level, from the level's rotation pointer upward and around (R117). -/
def State.pickLevel (s : State) (asks : ChanId → Bool) (level : Fin 4) : Option ChanId :=
  ((List.finRange 8).map fun k => s.arb.rot.get level + k).find? fun c =>
    asks c && decide ((s.chan c).stat.prio = level)

/-- The fetch request chosen within a tier: lowest priority number, then rotation (R116). -/
def State.pickFetch (s : State) (asks : ChanId → Bool) : Option ChanId :=
  (List.finRange 4).findSome? (s.pickLevel asks)

/-- The port chosen within a tier: of both, the one that is not last served (R116). -/
def State.pickPort (s : State) (asks : Port → Bool) : Option Port :=
  if asks s.arb.lastServed.other then some s.arb.lastServed.other
  else if asks s.arb.lastServed then some s.arb.lastServed
  else none

/-- A port request that has been passed over eight times (R118). -/
def State.aged (s : State) (p : Port) : Bool := s.portRequest p && decide (s.arb.passOver.get p = 8)

/-- The request a grant decision grants: the four tiers of R116 in order. -/
def State.chosen (s : State) : Option Requester :=
  match s.pickFetch s.urgent with
  | some c => some (.fetcher c)
  | none =>
    match s.pickPort s.aged with
    | some p => some (.loadUnit p)
    | none =>
      match s.pickFetch s.fetchRequest with
      | some c => some (.fetcher c)
      | none => (s.pickPort s.portRequest).map .loadUnit

/-- The pass-over count of a port at a grant (R118). -/
def State.passOverAfter (s : State) (winner : Requester) (p : Port) : Nat :=
  if winner = .loadUnit p then 0
  else if s.portRequest p then min 8 (s.arb.passOver.get p + 1)
  else s.arb.passOver.get p

/-- The arbiter's fields after a grant (R117, R118). -/
def State.arbAfter (s : State) (winner : Requester) : Arbiter where
  rot := match winner with
    | .fetcher c => s.arb.rot.set (s.chan c).stat.prio (c + 1)
    | .loadUnit _ => s.arb.rot
  passOver := ⟨s.passOverAfter winner .a, s.passOverAfter winner .b⟩
  lastServed := match winner with
    | .fetcher _ => s.arb.lastServed
    | .loadUnit p => p

/-- The page that holds a stored index (R15). -/
def SegRec.pageOf (r : SegRec) (k : Nat) : PageNo := r.pages.getD (k / 256) 0

/-- The burst a Fetcher is granted, sized from its cursor (R104). -/
def fetchBurst (c : ChanId) (r : SegRec) (e : Entry) (cur : Cursor) (held : Nat) : Burst :=
  let length := r.length.getD 0
  let rev := e.reversed cur.pass
  let k := storedIndex rev length cur.index
  let inPage := if rev then k % 256 + 1 else 256 - k % 256
  { requester := .fetcher c
    write := false
    page := r.pageOf k
    first := k % 256
    ascending := !rev
    count := min (min 32 inPage) (min (length - cur.index) (64 - held))
    values := []
    keep := true
    tag := some ⟨e.seg, cur.entry, cur.pass, cur.index, length⟩ }

/-- A grant to a Fetcher: the burst is in flight and the cursor has moved past it (R103, R104). -/
def State.grantFetch (s : State) (c : ChanId) : State :=
  let ch := s.chan c
  match ch.cursor with
  | none => s
  | some cur =>
    match ch.entryAt cur.entry with
    | none => s
    | some e =>
      let b := fetchBurst c (s.seg e.seg) e cur ch.fifo.length
      { s.setChan c (ch.moveCursor cur b.count (((s.seg e.seg).length).getD 0)) with burst := some b }

/-- The burst of a drain (R24). -/
def drainBurst (p : Port) (r : SegRec) (u : LoadUnit) : Burst :=
  let count := min 32 (min u.buffer.length (256 - u.wpos % 256))
  { requester := .loadUnit p
    write := true
    page := r.pageOf u.wpos
    first := u.wpos % 256
    ascending := true
    count := count
    values := u.buffer.take count
    keep := true
    tag := none }

/-- The burst of a readback (R35). -/
def readBurst (p : Port) (r : SegRec) (rb : Readback) : Burst :=
  { requester := .loadUnit p
    write := false
    page := r.pageOf rb.next
    first := rb.next % 256
    ascending := true
    count := min 32 (min rb.remaining (256 - rb.next % 256))
    values := []
    keep := true
    tag := none }

/-- A grant to a Load Unit: its drain burst, or else its readback burst. -/
def State.grantLoad (s : State) (p : Port) : State :=
  let u := s.loadUnit p
  if s.drainRequest p then
    match u.seg with
    | some i => { s with burst := some (drainBurst p (s.seg i) u) }
    | none => s
  else
    match u.readback with
    | some rb => { s with burst := some (readBurst p (s.seg rb.seg) rb) }
    | none => s

/-- A grant decision, made at each event at which the store is free and a request is outstanding (R115). -/
def State.arbitrate (s : State) : State :=
  match s.burst with
  | some _ => s
  | none =>
    match s.chosen with
    | none => s
    | some r =>
      let s1 := match r with
        | .fetcher c => s.grantFetch c
        | .loadUnit p => s.grantLoad p
      { s1 with arb := s.arbAfter r }

end Sys2Proof.Machine
end

