-- ==== Sys2Proof/Machine/Segments.lean ====
section
/-! DEFINITION. Pages given out and taken back (R6, R7, R9), segments freed (R19, R31), references bound and released (R46,
R47), readbacks cancelled (R37), loads aborted (R27, R28). -/

namespace Sys2Proof.Machine

/-- ceil(n / 256). -/
def pagesFor (n : Nat) : Nat := (n + 255) / 256

/-- The state of a page changed, its suspect flag kept. -/
def State.markPage (s : State) (st : PageState) (n : PageNo) : State := s.setPage n { s.page n with state := st }

/-- The first n pages of the free list given out: they become HELD (R6). -/
def State.takePages (s : State) (n : Nat) : State :=
  (s.freeList.take n).foldl (fun t pg => t.markPage .held pg) { s with freeList := s.freeList.drop n }

/-- One page taken back (R7). -/
def State.givePage (s : State) (n : PageNo) : State :=
  if (s.page n).suspect then ({ s with retired := s.retired ++ [n] }).markPage .retired n
  else ({ s with freeList := s.freeList ++ [n] }).markPage .free n

/-- Pages given back in order (R7). -/
def State.givePages (s : State) (l : List PageNo) : State := l.foldl State.givePage s

/-- A read burst that found a parity error in a page completes (R8, R9). -/
def State.suspectPage (s : State) (n : PageNo) : State :=
  let s1 := s.setPage n { s.page n with suspect := true }
  if (s.page n).state = .free then
    ({ s1 with freeList := s1.freeList.erase n, retired := s1.retired ++ [n] }).markPage .retired n
  else s1

/-- The port's burst in flight is a read burst marked KEEP: a burst of the readback under way. -/
def State.readInFlight (s : State) (p : Port) : Bool :=
  match s.loadBurst p with
  | some b => !b.write && b.keep
  | none => false

/-- The items of the port's read burst in flight, if there is one, are to be discarded (R29, R37). -/
def State.dropReadBurst (s : State) (p : Port) : State :=
  match s.loadBurst p with
  | some b => if b.write then s else { s with burst := some { b with keep := false } }
  | none => s

/-- The readback of a port on a segment that becomes FREE is cancelled (R37): a request for its next burst is withdrawn,
which clears the port's pass-over count (R118), and the items of its burst in flight are discarded. -/
def State.cancelReadback (s : State) (i : SegId) (p : Port) : State :=
  let u := s.loadUnit p
  match u.readback with
  | some r =>
    if r.seg = i ∧ r.mark = .live then
      let s1 := if s.readRequest p then s.setPassOver p 0 else s
      let mark := if s.readInFlight p then .cancelledInFlight else .cancelled
      (s1.dropReadBurst p).setLoad p { u with readback := some { r with mark := mark } }
    else s
  | none => s

/-- A cancelled readback with none of its bursts in flight is answered (R37): SEGMENT-STATE and the segment id alone
(R175). -/
def State.answerCancelled (s : State) (p : Port) : State :=
  let u := s.loadUnit p
  match u.readback with
  | some r =>
    if r.mark = .cancelled then
      (s.setLoad p { u with readback := none }).respond p Code.readSegment .segmentState [byteOfNat r.seg.val]
    else s
  | none => s

/-- Both ports' cancelled readbacks, at the end of the event that freed their segments. -/
def State.settleCancelled (s : State) : State := (s.answerCancelled .a).answerCancelled .b

/-- A segment becomes FREE (R19): its pages are given back, its record takes the FREE values, readbacks of it are
cancelled. -/
def State.freeSegment (s : State) (i : SegId) : State :=
  ((((s.givePages (s.seg i).pages).setSeg i .freed).cancelReadback i .a).cancelReadback i .b)

/-- An entry binds its segment (R46). -/
def State.bindSegment (s : State) (i : SegId) : State :=
  s.setSeg i { s.seg i with refs := (s.seg i).refs + 1 }

/-- SEGMENT-FREED delivered to the owner (R31). -/
def State.raiseFreed (s : State) (i : SegId) (owner : Option Port) : State :=
  match owner with
  | some p => s.raiseTo p .device .segmentFreed (.segment i)
  | none => s

/-- An entry releases its segment (R47). -/
def State.releaseSegment (s : State) (i : SegId) : State :=
  let r := s.seg i
  if r.state = .doomed ∧ r.refs ≤ 1 then (s.raiseFreed i r.owner).freeSegment i
  else s.setSeg i { r with refs := r.refs - 1 }

/-- The release frees the segment (R47). -/
def State.releaseFrees (s : State) (i : SegId) : Bool :=
  decide ((s.seg i).state = .doomed) && decide ((s.seg i).refs ≤ 1)

/-- A Load Unit back in NONE (R26, R27, R28); its readback is its own affair. -/
def LoadUnit.closed (u : LoadUnit) : LoadUnit :=
  { u with phase := .noLoad, seg := none, received := 0, wpos := 0, buffer := [], oversize := false }

/-- The load segment freed and the Load Unit back in NONE (R27, R28). -/
def State.endLoad (s : State) (p : Port) : State :=
  let s1 := match (s.loadUnit p).seg with
    | some i => s.freeSegment i
    | none => s
  s1.setLoad p (s1.loadUnit p).closed

/-- The port's write burst in flight, if there is one. -/
def State.drainInFlight (s : State) (p : Port) : Option Burst :=
  match s.loadBurst p with
  | some b => if b.write then some b else none
  | none => none

/-- An abort of an open load (R27): samples not in the burst in flight are discarded and a drain request is withdrawn
(R118). With no write burst in flight the load ends at once, else the Load Unit enters ABORTING. -/
def State.abortOpen (s : State) (p : Port) : State :=
  let s1 := if s.drainRequest p then s.setPassOver p 0 else s
  match s.drainInFlight p with
  | none => s1.endLoad p
  | some b =>
    let u := s1.loadUnit p
    s1.setLoad p { u with phase := .aborting, buffer := u.buffer.take b.count }

/-- The Load Unit at a port reset (R29). -/
def State.resetLoad (s : State) (p : Port) : State :=
  let s1 := s.dropReadBurst p
  let s2 := s1.setLoad p { s1.loadUnit p with readback := none }
  if (s2.loadUnit p).phase = .opened then s2.abortOpen p else s2

/-- A port reset (R161): claims, Load Unit, readback, arbiter, event set, enable set and protocol record of one port. -/
def State.resetOnePort (s : State) (p : Port) : State :=
  let s1 := { s with claims := s.claims.map fun (k : Claim) => if k.controller = some p then ⟨none, false⟩ else k }
  let s2 := (s1.resetLoad p).setPassOver p 0
  s2.setPort p { s2.port p with
    proto := .idle, unread := none, overrun := false, lost := false, events := [], enable := 0#15 }

end Sys2Proof.Machine
end

