-- ==== Sys2Proof/Machine/BurstEvents.lean ====
section
/-! DEFINITION. Completions of bursts (R12, R13, R25, R28, R35 to R38, R62, R105). -/

namespace Sys2Proof.Machine

/-- Disturbances of stored bits, in order (R2, log 3). -/
def State.disturb (s : State) (us : List Upset) : State := { s with mem := us.foldl Memory.upset s.mem }

/-- The end of a read burst in the store (R13): the store is free, and a parity error marks the page (R8, R9). -/
def State.endRead (s : State) (b : Burst) : State :=
  let s1 : State := { s with burst := none }
  if (s.readSlots b).any Slot.bad then s1.suspectPage b.page else s1

/-! ### FETCH_BURST_COMPLETE (R105) -/

/-- The items of a KEEP burst, tagged from play-order index q on; a bad one takes the value before it (R105). -/
def fetchedItems (t : FetchTag) : Nat → Sample → List Slot → List Item
  | _, _, [] => []
  | q, prev, x :: r =>
    let v := if Slot.bad x then prev else x.value
    ⟨v, t.entry, t.pass, q, decide (q + 1 = t.length)⟩ :: fetchedItems t (q + 1) v r

/-- The value of the FIFO tail, or 0 (R105). -/
def tailValue (l : List Item) : Sample :=
  match l.getLast? with
  | some it => it.value
  | none => 0#16

/-- A KEEP burst's items appended; a substitution damages the segment (R38). -/
def State.appendFetched (s : State) (c : ChanId) (t : FetchTag) (slots : List Slot) : State :=
  let ch := s.chan c
  let s1 := s.setChan c { ch with fifo := ch.fifo ++ fetchedItems t t.index (tailValue ch.fifo) slots }
  if slots.any Slot.bad then
    (s1.setSeg t.seg { s1.seg t.seg with damaged := true }).raiseBoth (.chan c) .parity
  else s1

/-- Prefill has ended: 64 items, or the cursor ended (R62). -/
def Chan.prefilled (ch : Chan) : Bool := decide (64 ≤ ch.fifo.length) || ch.cursor.isNone

/-- ARMING becomes ARMED when prefill has ended (R62). -/
def State.endPrefill (s : State) (c : ChanId) : State :=
  if (s.chan c).state = .arming ∧ (s.chan c).prefilled then
    (s.setChan c { s.chan c with state := .armed }).raiseBoth (.chan c) .armed
  else s

/-- What the Fetcher does at the completion of its burst (R105). -/
def State.fetchDone (s : State) (c : ChanId) (b : Burst) : State :=
  let s1 := s.endRead b
  let s2 := match b.keep, b.tag with
    | true, some t => s1.appendFetched c t (s.readSlots b)
    | _, _ => s1
  (s2.endPrefill c).arbitrate

/-- FETCH_BURST_COMPLETE (R105); with no Fetcher's burst in flight there is no such event (log 4). -/
def execFetchBurstComplete (us : List Upset) (s : State) : Host.Outcome State Fault Refusal :=
  .next (match s.burst with
    | some b =>
      (match b.requester with
       | .fetcher c => (s.disturb us).fetchDone c b
       | .loadUnit _ => s)
    | none => s)

/-! ### DRAIN_BURST_COMPLETE (R25, R28) -/

/-- A write burst completes: its slots are written (R12), the samples leave the buffer and the write position rises. -/
def State.drainDone (s : State) (p : Port) (b : Burst) : State :=
  let s1 : State := { s with burst := none, mem := writeSlots b.page s.mem b.slots b.values }
  let u := s1.loadUnit p
  let s2 := s1.setLoad p { u with buffer := u.buffer.drop b.count, wpos := u.wpos + b.count }
  (if u.phase = .aborting then s2.endLoad p else s2).arbitrate

/-- DRAIN_BURST_COMPLETE (R25); with no write burst in flight there is no such event (log 4). -/
def execDrainBurstComplete (s : State) : Host.Outcome State Fault Refusal :=
  .next (match s.burst with
    | some b =>
      (match b.requester, b.write with
       | .loadUnit p, true => s.drainDone p b
       | _, _ => s)
    | none => s)

/-! ### READBACK_BURST_COMPLETE (R35 to R37) -/

/-- The stored indices of the bad items of a burst, the first at index k (R35). -/
def suspectIndices : Nat → List Slot → List Nat
  | _, [] => []
  | k, x :: r => if Slot.bad x then k :: suspectIndices (k + 1) r else suspectIndices (k + 1) r

/-- A readback extended by the items of a burst (R35). -/
def Readback.extend (rb : Readback) (slots : List Slot) : Readback :=
  { rb with
    next := rb.next + slots.length
    remaining := rb.remaining - slots.length
    samples := rb.samples ++ slots.map Slot.value
    suspects := rb.suspects ++ suspectIndices rb.next slots }

/-- The suspect map of R175: bit 7 - (j mod 8) of byte floor(j/8) for stored index offset + j. -/
def suspectMap (offset : Nat) (suspects : List Nat) : List Byte :=
  (List.range 16).map fun k =>
    (List.range 8).foldl (fun m i => if suspects.contains (offset + 8 * k + i) then m ||| (0x80#8 >>> i) else m) 0#8

/-- The status of a completed readback (R36). -/
def Readback.status (rb : Readback) : Status :=
  if rb.suspects ≠ [] then .dataSuspect else if rb.clamped then .clamped else .ok

/-- The payload of a completed readback (R175). -/
def Readback.bytes (rb : Readback) : List Byte :=
  byteOfNat rb.seg.val :: (putWord rb.offset ++ (byteOfNat rb.samples.length :: putSamples rb.samples)
    ++ suspectMap rb.offset rb.suspects)

/-- The items of a kept readback burst taken; the response is formed when none remain (R35, R36). -/
def State.takeRead (s : State) (p : Port) (slots : List Slot) : State :=
  let u := s.loadUnit p
  match u.readback with
  | none => s
  | some rb =>
    let rb1 := rb.extend slots
    if rb1.remaining = 0 then
      (s.setLoad p { u with readback := none }).respond p Code.readSegment rb1.status rb1.bytes
    else s.setLoad p { u with readback := some rb1 }

/-- The items of a discarded burst: a cancelled readback that waited for it is answered (R37). -/
def State.dropRead (s : State) (p : Port) : State :=
  let u := s.loadUnit p
  match u.readback with
  | some rb =>
    if rb.mark = .cancelledInFlight then
      (s.setLoad p { u with readback := some { rb with mark := .cancelled } }).answerCancelled p
    else s
  | none => s

/-- What the Load Unit does at the completion of its read burst (R35, R37). -/
def State.readDone (s : State) (p : Port) (b : Burst) : State :=
  let s1 := s.endRead b
  (if b.keep then s1.takeRead p (s.readSlots b) else s1.dropRead p).arbitrate

/-- READBACK_BURST_COMPLETE (R35); with no read burst of a Load Unit in flight there is no such event (log 4). -/
def execReadbackBurstComplete (us : List Upset) (s : State) : Host.Outcome State Fault Refusal :=
  .next (match s.burst with
    | some b =>
      (match b.requester, b.write with
       | .loadUnit p, false => (s.disturb us).readDone p b
       | _, _ => s)
    | none => s)

end Sys2Proof.Machine
end

