-- ==== Sys2Proof/Machine/ClaimCommands.lean ====
section
/-! DEFINITION. CLAIM and RELEASE (R151 to R153). -/

namespace Sys2Proof.Machine

/-- Claim outcomes (R151). -/
inductive ClaimOutcome where
  | claimed
  | updated
  | taken
  | refused
  deriving DecidableEq, Repr

/-- Claim outcome codes (R173). -/
def ClaimOutcome.code : ClaimOutcome → Byte
  | .claimed => 0#8
  | .updated => 1#8
  | .taken => 2#8
  | .refused => 3#8

/-- The table of R151. -/
def claimOutcome (k : Claim) (p : Port) (take : Bool) : ClaimOutcome :=
  match k.controller with
  | none => .claimed
  | some q => if q = p then .updated else if take && k.yieldable then .taken else .refused

/-- One channel dealt with by CLAIM; a channel TAKEN raises CLAIM-LOST to the former controller (R151, R152). -/
def State.claimOne (p : Port) (yieldable take : Bool) (s : State) (c : ChanId) : State :=
  match claimOutcome (s.claimOf c) p take with
  | .refused => s
  | .taken => (s.setClaim c ⟨some p, yieldable⟩).raiseTo p.other (.chan c) .claimLost .nothing
  | .claimed | .updated => s.setClaim c ⟨some p, yieldable⟩

/-- What CLAIM reports of one channel: its outcome, its controller and yieldable flag after the command. -/
def claimReport (before after : State) (p : Port) (take : Bool) (c : ChanId) : List Byte :=
  (claimOutcome (before.claimOf c) p take).code :: controllerCode (after.claimOf c).controller
    :: putFlag (after.claimOf c).yieldable

/-- Some channel of the mask is REFUSED. -/
def State.claimRefused (s : State) (p : Port) (take : Bool) (mask : Byte) : Bool :=
  (maskChans mask).any fun c => decide (claimOutcome (s.claimOf c) p take = .refused)

/-- CLAIM (R151). -/
def execClaim (p : Port) (mask : Byte) (yieldable take : Bool) (s : State) : Host.Outcome State Fault Refusal :=
  .next (onPort p (frameLength (.claim p mask yieldable take)) s fun t =>
    if mask = 0#8 then t.respond p Code.claim .badArgument []
    else
      let t1 := (maskChans mask).foldl (State.claimOne p yieldable take) t
      t1.respond p Code.claim (if t.claimRefused p take mask then .claimedElsewhere else .ok)
        (byteOfNat (maskChans mask).length :: (maskChans mask).flatMap (claimReport t t1 p take)))

/-- One channel dealt with by RELEASE (R153). -/
def State.releaseOne (p : Port) (s : State) (c : ChanId) : State :=
  if s.controls p c then s.setClaim c ⟨none, false⟩ else s

/-- RELEASE (R153): the mask released and the mask not held. -/
def execRelease (p : Port) (mask : Byte) (s : State) : Host.Outcome State Fault Refusal :=
  .next (onPort p (frameLength (.release p mask)) s fun t =>
    if mask = 0#8 then t.respond p Code.release .badArgument []
    else
      ((maskChans mask).foldl (State.releaseOne p) t).respond p Code.release .ok
        [maskOf fun c => mask.getLsbD c.val && t.controls p c, maskOf fun c => mask.getLsbD c.val && !t.controls p c])

/-- The port controls every channel of the mask (R154). -/
def State.controlsAll (s : State) (p : Port) (mask : Byte) : Bool := (maskChans mask).all (s.controls p)

end Sys2Proof.Machine
end

