-- ==== Sys2Proof/Machine/Playback.lean ====
section
/-! DEFINITION. The course of play (04_channel_playback): entry starts and waits (R68), pass ends (R69, R70), entering
IDLE (R73) and HALTED (R76), and the parts of one output tick (R58, R67, R71, R87, R106, R108). -/

namespace Sys2Proof.Machine

/-- The start, advance and update latches cleared (R123). -/
def Chan.clearLatches (ch : Chan) : Chan := { ch with startLatch := false, advLatch := false, updLatch := false }

/-- Entering IDLE from RUNNING, WAITING or STOPPING (R73, R148), with the cause given. -/
def Work.enterIdle (c : ChanId) (w : Work) : Work :=
  let w1 := w.flush c
  let ch := { w1.ch.clearLatches.silenceMarkers with
    state := .idle, stop := none, jump := none, startRequest := false, clipOpen := false }
  ({ w1 with ch := ch }).applyStaged

/-- Entering HALTED (R76, R148): the fault record, the park level, the flush and the rest at the same event. -/
def Work.halt (c : ChanId) (cause : FaultCause) (w : Work) : Work :=
  let index := if w.ch.state = .waiting then 0 else posIndex w.ch.pos
  let record : FaultRec := ⟨cause, w.ch.entry, w.ch.pass, index, w.ch.state⟩
  let w1 := w.flush c
  let ch := { (w1.ch.clearLatches.silenceMarkers).place w1.ch.stat.park with
    state := .halted, fault := some record, stop := none, jump := none, startPending := false, startRequest := false,
    clipOpen := false }
  (({ w1 with ch := ch }).raise .fault).applyStaged

/-- The start of the current entry: its marker pulses (R130), a PASS or ENTRY record (R145), and the pass stalled flag
cleared (R109). -/
def Work.startEntry (w : Work) : Work :=
  let ch := match w.ch.entryAt w.ch.entry with
    | some e => { w.ch with mk1 := w.ch.mk1.pulseAtEntry e.mk1, mk2 := w.ch.mk2.pulseAtEntry e.mk2 }
    | none => w.ch
  ({ w with ch := { ch with passStalled := false } }).applyAtEntry

/-- Entering entry t with a carry (R68). Entering WAITING sets the scaled value to 0 (R86). -/
def Work.enterEntry (t : EntryIx) (carry : Nat) (w : Work) : Work :=
  let ch := { w.ch with entry := t, pass := 0#16 }
  let waits := match ch.entryAt t with
    | some e => e.wait
    | none => false
  if !waits then ({ w with ch := { ch with pos := carry } }).startEntry
  else if ch.advLatch then ({ w with ch := { ch with advLatch := false, pos := 0 } }).startEntry
  else { w with ch := { ch with pos := 0, state := .waiting, scaled := 0 } }

/-- List end (R70). `afterLeave` says that it is reached through case 3 of R69, whose redirection of the Fetcher is R111. -/
def Work.listEnd (c : ChanId) (carry : Nat) (afterLeave : Bool) (w : Work) : Work :=
  if w.ch.loops then (if afterLeave then w.refetchFrom c 0 else w).enterEntry 0 carry
  else
    let stopped := decide (w.ch.stop = some .atListEnd)
    let w1 := (({ w with ch := { w.ch with pos := carry } }).enterIdle c).raise .listDone
    if stopped then w1.raise .stopped else w1

/-- What follows a pass end: the six cases of R69 in their order. The passes-completed counter has risen, the ended pass's
items are dropped (R107). -/
def Work.afterPass (c : ChanId) (carry : Nat) (w : Work) : Work :=
  let here := w.ch.entryAt w.ch.entry
  let leave := match here with
    | some e => e.leave
    | none => false
  let more := match here with
    | some e => e.morePasses w.ch.pass.toNat
    | none => false
  if w.ch.stop = some .atPass then (({ w with ch := { w.ch with pos := carry } }).enterIdle c).raise .stopped
  else match w.ch.jump with
    | some t => ({ w with ch := { w.ch with jump := none } }).enterEntry t carry
    | none =>
      if leave && w.ch.advLatch then
        let w1 : Work := { w with ch := { w.ch with advLatch := false } }
        match successor w1.ch.list w1.ch.entry with
        | some t => (w1.refetchFrom c t).enterEntry t carry
        | none => w1.listEnd c carry true
      else if more then
        let ch := match here with
          | some e => { w.ch with mk1 := w.ch.mk1.pulseAtPass e.mk1, mk2 := w.ch.mk2.pulseAtPass e.mk2 }
          | none => w.ch
        ({ w with ch := { ch with pos := carry, passStalled := false } }).applyAtPass
      else match successor w.ch.list w.ch.entry with
        | some t => w.enterEntry t carry
        | none => w.listEnd c carry false

/-- A pass end (R69, R107, R109): `length` is the length of the segment whose pass ended. -/
def Work.passEnd (c : ChanId) (length : Nat) (w : Work) : Work :=
  let carry := w.ch.pos - length * 65536
  let w1 := w.dropPass c
  let ch := { w1.ch with
    pass := w1.ch.pass + 1#16, consec := if w1.ch.passStalled then w1.ch.consec else 0 }
  ({ w1 with ch := ch }).afterPass c carry

/-- What a tick does to the lane, decided as the tick begins. -/
inductive Phase where
  /-- IDLE, ARMING, or ARMED and not starting: the idle level -/
  | idleWord
  /-- HALTED: the park level -/
  | parkWord
  /-- an IMMEDIATE stop tick (R73) -/
  | stopNow
  /-- WAITING and staying, or started into WAITING: the word is left -/
  | hold
  /-- RUNNING or STOPPING for this tick's computation (R106) -/
  | play
  deriving DecidableEq, Repr

/-- The beginning of a tick: the latch and records applied at its start, and the start of R67 or the wait exit of R71. -/
def Work.beginTick (w : Work) : Work × Phase :=
  match w.ch.state with
  | .idle | .arming => (w, .idleWord)
  | .halted => (w, .parkWord)
  | .armed =>
    if w.ch.startPending then
      let ch := { w.ch with
        startPending := false, startLatch := false, entry := 0, pass := 0#16, pos := 0, state := .running }
      let w1 := (({ w with ch := ch }).raise .started).enterEntry 0 0
      (w1, if w1.ch.state = .waiting then .hold else .play)
    else (w, .idleWord)
  | .running => (w.startOfTick, .play)
  | .stopping =>
    let w1 := w.startOfTick
    (w1, if w1.ch.stop = some .immediate then .stopNow else .play)
  | .waiting =>
    let w1 := w.startOfTick
    if w1.ch.stop = some .immediate then (w1, .stopNow)
    else if w1.ch.startRequest then
      let ch := { w1.ch with
        startRequest := false, pos := 0, pass := 0#16,
        state := if w1.ch.stop = some .atListEnd then .stopping else .running }
      (({ w1 with ch := ch }).startEntry, .play)
    else (w1, .hold)

/-- Items below the position's index removed, at every tick of R106. -/
def Work.consult (w : Work) : Work := { w with ch := { w.ch with fifo := dropBelow (posIndex w.ch.pos) w.ch.fifo } }

/-- What the partner's adder sees of a tick that is still to be taken (R95): the g it computes, the scaled value held at a
stalled tick, else 0. -/
def Work.contribution (segs : Vector SegRec 256) (w : Work) : Int :=
  match w.beginTick with
  | (w1, .play) =>
    match w1.consult.ch.fetchPair (lengthOf segs w1.ch w1.ch.entry) with
    | some (a, b) => w1.ch.scaledAt a b
    | none => w1.ch.scaled
  | (_, _) => 0

/-- A clamped or unclamped tick and the clip episode (R97). -/
def Work.clipTick (clamped : Bool) (w : Work) : Work :=
  if clamped then
    let w1 : Work := { w with ch := { w.ch with clipOpen := true, clipCount := min 65535 (w.ch.clipCount + 1) } }
    if w.ch.clipOpen then w1 else w1.raise .clip
  else { w with ch := { w.ch with clipOpen := false } }

/-- A computed tick up to and including the advance of the position (R87, R89, R91 to R98, R131, R132); it closes the
underrun episode (R108). -/
def Work.compute (a b : Sample) (h : Int) (w : Work) : Work :=
  let g := w.ch.scaledAt a b
  let v := sumWith w.ch.stat.combine g w.ch.live.offset.toInt h
  let out := saturate v
  let w1 := ({ w with ch := { w.ch with scaled := g, underrun := false } }).clipTick (decide (out ≠ v))
  let ch := ((w1.ch.place (BitVec.ofInt 16 out)).countMarkers).compareMarkers out
  { w1 with ch := { ch with pos := ch.pos + ch.live.step } }

/-- A stalled tick (R108): the episode opens if it was closed, with UNDERRUN and both counts. -/
def Work.stall (w : Work) : Work :=
  let ch := { w.ch.countMarkers with passStalled := true }
  if w.ch.underrun then { w with ch := ch }
  else ({ w with ch := { ch with
    underrun := true, consec := min 3 (ch.consec + 1), totalUnder := min 65535 (ch.totalUnder + 1) } }).raise .underrun

/-- What is left of a tick once its word has been placed or left. -/
inductive Rest where
  | nothing
  /-- an IMMEDIATE stop: enter IDLE (R73) -/
  | stop
  /-- the consecutive underrun count has risen to 3 (R108) -/
  | starve
  /-- the position has advanced (R89): a pass may have ended -/
  | moved
  deriving DecidableEq, Repr

/-- The tick up to the point where it has placed or left its word and the markers have followed (R58). -/
def Work.tickWord (segs : Vector SegRec 256) (h : Int) (w : Work) : Work × Rest :=
  match w.beginTick with
  | (w1, .idleWord) => ({ w1 with ch := w1.ch.place w1.ch.stat.idle }, .nothing)
  | (w1, .parkWord) => ({ w1 with ch := w1.ch.place w1.ch.stat.park }, .nothing)
  | (w1, .stopNow) => ({ w1 with ch := w1.ch.place w1.ch.stat.idle }, .stop)
  | (w1, .hold) => ({ w1 with ch := w1.ch.countMarkers }, .nothing)
  | (w1, .play) =>
    let w2 := w1.consult
    match w2.ch.fetchPair (lengthOf segs w2.ch w2.ch.entry) with
    | some (a, b) => (w2.compute a b h, .moved)
    | none =>
      let w3 := w2.stall
      (w3, if !w2.ch.underrun && decide (3 ≤ w3.ch.consec) then .starve else .nothing)

/-- The changes of state at the end of the tick (R58): the stop, the halt, or the pass end. -/
def Work.tickEnd (segs : Vector SegRec 256) (c : ChanId) (r : Rest) (w : Work) : Work :=
  match r with
  | .nothing => w
  | .stop => (w.enterIdle c).raise .stopped
  | .starve => w.halt c .starved
  | .moved =>
    let length := lengthOf segs w.ch w.ch.entry
    if length * 65536 ≤ w.ch.pos then w.passEnd c length else w

end Sys2Proof.Machine
end

