-- ==== Sys2Proof/Machine/Triggers.lean ====
section
/-! DEFINITION. The Trigger Matrix (07, R119 to R127), the sync lines (R135), and the output tick of one channel as a whole,
with the line changes it makes (R58, R135) and the grant it may cause (R115). -/

namespace Sys2Proof.Machine

/-- A trigger event at a start subscription (R66, R124). `deaf`: the monitor is LOST (R124), or the event is of the channel's
own marker (R137). -/
def Work.startEvent (deaf : Bool) (w : Work) : Work :=
  if deaf then w
  else match w.ch.state with
    | .arming | .armed =>
      if w.ch.startLatch then w.raise .triggerOverrun
      else { w with ch := { w.ch with startPending := true, startLatch := true } }
    | .idle | .running | .waiting | .stopping | .halted => w

/-- The advance latch set, or TRIGGER-OVERRUN when it is set already (R125). -/
def Work.latchAdvance (w : Work) : Work :=
  if w.ch.advLatch then w.raise .triggerOverrun else { w with ch := { w.ch with advLatch := true } }

/-- A trigger event at an advance subscription (R71, R125). -/
def Work.advanceEvent (w : Work) : Work :=
  match w.ch.state with
  | .running | .stopping => w.latchAdvance
  | .waiting => if w.ch.startRequest then w.latchAdvance else { w with ch := { w.ch with startRequest := true } }
  | .idle | .arming | .armed | .halted => w

/-- A trigger event at an update subscription (R127). -/
def Work.updateEvent (w : Work) : Work :=
  if w.ch.state.playing && !w.ch.staged.isEmpty && decide (w.ch.staged.point = some .trigger) then
    if w.ch.updLatch then w.raise .triggerOverrun else { w with ch := { w.ch with updLatch := true } }
  else w

/-- A trigger event of a source at one channel: each subscription that names the source acts (R119), and each overrun raises
TRIGGER-OVERRUN, so two of them in one event mark the entry MULTIPLE (log 35). -/
def Work.triggerEvent (deaf : Bool) (src : Source) (w : Work) : Work :=
  let w1 := if w.ch.stat.startSrc = some src then w.startEvent deaf else w
  let w2 := if w1.ch.stat.advSrc = some src then w1.advanceEvent else w1
  if w2.ch.stat.updSrc = some src then w2.updateEvent else w2

/-- A trigger event reaches every channel (R119). `own` is the channel whose marker made it at an output tick, if one did:
its start subscription does not act (R137). -/
def State.triggerBy (s : State) (own : Option ChanId) (src : Source) : State :=
  (List.finRange 8).foldl
    (fun t c => t.putWork c
      ((t.work c).triggerEvent (decide (t.monitor.clock = .lost) || decide (own = some c)) src)) s

/-- A trigger event that no channel's tick made. -/
def State.trigger (s : State) (src : Source) : State := s.triggerBy none src

/-- The level of a sync line: its driver's active state, low without a driver (R135). -/
def State.lineLevel (s : State) (l : Fin 4) : Bool :=
  match s.drivers.get l with
  | some (c, u) => ((s.chan c).unit u).active
  | none => false

/-- The index of a sync line among the sources with an edge mode (R120). -/
def lineIndex (l : Fin 4) : Fin 8 := ⟨4 + l.val, by omega⟩

/-- The index of a TRG pin among the sources with an edge mode (R120). -/
def pinIndex (n : Fin 4) : Fin 8 := ⟨n.val, by omega⟩

/-- The lines whose level changes from one state to another and counts under the line's edge mode (R120, R135). -/
def countedLines (before after : State) : List (Fin 4) :=
  (List.finRange 4).filter fun l =>
    decide (before.lineLevel l ≠ after.lineLevel l) && (after.modes.get (lineIndex l)).counts (after.lineLevel l)

/-- Line changes made at the output tick of a channel: judged now, on their way to the Trigger Matrix after this SCLK edge
(R135). Until they reach it any command can be taken (log 38). -/
def State.noteLines (before : State) (c : ChanId) (after : State) : State :=
  { after with syncEvents := after.syncEvents ++ (countedLines before after).map fun l => ⟨l, c⟩ }

/-- Line changes made outside a tick reach the Trigger Matrix at once (R135). -/
def State.deliverLines (before after : State) : State :=
  (countedLines before after).foldl (fun t l => t.trigger (.syn l)) after

/-- What a channel's tick at the present edge contributes to its partner's sum (R95). -/
def State.contribution (s : State) (c : ChanId) : Int :=
  match s.tickOf c with
  | .noTick => 0
  | .due => (s.work c).contribution s.segs
  | .done h => h

/-- The output tick of one channel (R58): its word, the marker units and the lines they drive, then the changes of state at
the end of the tick, the lines again, and the grant decision if the store is free. R115 names only the event of a
decision: that it falls after everything else in the tick, the drop and redirection of a pass end too, is the model's
choice (log 34). -/
def State.tickOne (s : State) (c : ChanId) : State :=
  let mine := s.contribution c
  let (w1, rest) := (s.work c).tickWord s.segs (s.contribution (partner c))
  let s1 := s.noteLines c (s.putWork c w1)
  let s2 := s1.noteLines c (s1.putWork c ((s1.work c).tickEnd s1.segs c rest))
  (s2.setTick c (.done mine)).arbitrate

/-- The channel's tick at the present edge is still to be taken. -/
def State.isDue (s : State) (c : ChanId) : Bool := decide (s.tickOf c = .due)

/-- The other channels with a channel's divider whose tick at the present edge is still to be taken: their ticks coincide
with its own (R79). -/
def State.coincident (s : State) (c : ChanId) : List ChanId :=
  (List.finRange 8).filter fun d =>
    decide (d ≠ c) && s.isDue d && decide ((s.chan d).stat.divider = (s.chan c).stat.divider)

/-- The output tick of a channel, and with it those that coincide with it: channels with equal dividers have all their ticks
in common (R79), so that a group request or a START acts on them at one tick (R65, R147) and the partner's value of R95 is
of this tick. Nothing comes between them (log 36). -/
def State.tickChannel (s : State) (c : ChanId) : State := (s.coincident c).foldl State.tickOne (s.tickOne c)

/-- The ticks of the present SCLK edge that are still to be taken, in ascending channel order (log 33). -/
def State.finishTicks (s : State) : State :=
  (List.finRange 8).foldl (fun t c => if t.isDue c then t.tickOne c else t) s

/-- The oldest waiting trigger event of a line. -/
def State.waitingEvent (s : State) (l : Fin 4) : Option SyncEvent := s.syncEvents.find? fun e => decide (e.line = l)

/-- The trigger event of a sync line reaches every channel, but for the start subscription of the channel whose marker made
it (R135, R137). -/
def State.reach (s : State) (e : SyncEvent) : State := s.triggerBy (some e.channel) (.syn e.line)

/-- A waiting trigger event of a sync line delivered. -/
def State.deliverEvent (s : State) (e : SyncEvent) : State := ({ s with syncEvents := s.syncEvents.erase e }).reach e

/-- All waiting trigger events of sync lines delivered, oldest first: before any output tick at a later edge (R135). -/
def State.deliverAll (s : State) : State :=
  s.syncEvents.foldl State.reach { s with syncEvents := [] }

/-- Everything that belongs to the present SCLK edge completed (log 5). -/
def State.finishEdge (s : State) : State := s.finishTicks.deliverAll

/-- A change of a pin's judged level (R119), judged under the pin's edge mode (R120). -/
def State.judgePin (s : State) (n : Fin 4) (level : Bool) : State :=
  if s.judged.get n = level then s
  else
    let s1 : State := { s with judged := s.judged.set n level }
    if (s.modes.get (pinIndex n)).counts level then s1.trigger (.trg n) else s1

end Sys2Proof.Machine
end

