-- ==== Sys2Proof/Machine/ClockEvents.lean ====
section
/-! DEFINITION. The Sample Clock Monitor and the output ticks (R58, R76, R78 to R81, R131). -/

namespace Sys2Proof.Machine

/-! ### The clock lost and restored (R80, R81) -/

/-- One channel when the clock is judged lost (R80). -/
def Work.loseClock (c : ChanId) (w : Work) : Work :=
  match w.ch.state with
  | .running | .waiting | .stopping => w.halt c .clockLost
  | .arming | .armed =>
    { w with ch := ({ w.ch with startPending := false, startLatch := false }).place w.ch.stat.idle }
  | .idle => { w with ch := w.ch.place w.ch.stat.idle }
  | .halted => w

/-- Every channel when the clock is judged lost. -/
def State.loseAll (s : State) : State :=
  (List.finRange 8).foldl (fun t c => t.putWork c ((t.work c).loseClock c)) s

/-- The monitor when no edge has come for 5 µs: run length 0, SCLK not running (R78). -/
def Monitor.still (m : Monitor) (clock : ClockState) : Monitor :=
  { m with clock := clock, runLength := 0, sinceEdge := 250, sclkRuns := false }

/-- The monitor becomes LOST (R80). What belongs to the last edge of SCLK is complete by then (log 5); the lines of the
channels that halt are judged and delivered at this event (R135). -/
def State.clockIsLost (s : State) : State :=
  let s0 := s.finishEdge
  let s1 := { s0 with monitor := s0.monitor.still .lost, ticks := Vector.replicate 8 .noTick }
  let s2 := (s1.raiseBoth .device .clockLost).loseAll
  s1.deliverLines s2

/-- The monitor at the move to PRESENT (R78, R79, R81): the alignment count restarts, and the time since the last edge of
SCLK goes on. Where the model has counted no running SCLK the move is on the sender's word, and an edge is taken to have just
come (log 9). -/
def Monitor.restored (m : Monitor) : Monitor :=
  ⟨.present, 0, 0, if m.sclkRuns then m.sinceEdge else 0, true⟩

/-- The monitor becomes PRESENT (R81). -/
def State.clockIsBack (s : State) : State :=
  ({ s with
      monitor := s.monitor.restored
      ticks := Vector.replicate 8 .noTick }).raiseBoth .device .clockRestored

/-- CLOCK_LOST (R80); in LOST there is no such event (log 4, log 9). -/
def execClockLost (s : State) : Host.Outcome State Fault Refusal :=
  .next (match s.monitor.clock with
    | .present => s.clockIsLost
    | .lost => s)

/-- RUN_LENGTH_RESET (R78): in LOST, 5 µs without a rising edge return the run length to 0. -/
def execRunLengthReset (s : State) : Host.Outcome State Fault Refusal :=
  .next (match s.monitor.clock with
    | .lost => { s with monitor := s.monitor.still .lost }
    | .present => s)

/-- CLOCK_RESTORED (R81); in PRESENT there is no such event (log 4, log 9). -/
def execClockRestored (s : State) : Host.Outcome State Fault Refusal :=
  .next (match s.monitor.clock with
    | .lost => s.clockIsBack
    | .present => s)

/-- One period of REFCLK passes: what a step does on an empty queue (R78, log 8). -/
def State.refclkPeriod (s : State) : State :=
  let m := s.monitor
  if 250 ≤ m.sinceEdge + 1 then
    match m.clock with
    | .present => s.clockIsLost
    | .lost => { s with monitor := m.still .lost }
  else
    match m.clock with
    | .present => { s with monitor := { m with sinceEdge := m.sinceEdge + 1 } }
    | .lost =>
      if m.sclkRuns then
        if 50000 ≤ m.runLength + 1 then ({ s with monitor := { m with sinceEdge := m.sinceEdge + 1 } }).clockIsBack
        else { s with monitor := { m with sinceEdge := m.sinceEdge + 1, runLength := m.runLength + 1 } }
      else { s with monitor := { m with sinceEdge := m.sinceEdge + 1 } }

/-! ### Edges of SCLK and output ticks (R58, R79) -/

/-- Which channels have an output tick at an edge with the new alignment count (R79). -/
def State.ticksAt (s : State) (align : Nat) : Vector TickStatus 8 :=
  Vector.ofFn fun c => if align % (s.chan c).stat.divider = 0 then .due else .noTick

/-- SCLK_RISING_EDGE (R79): ticks and line edges of the edge before are complete (log 5); in PRESENT the alignment count
rises and output ticks fall due. -/
def execSclkRisingEdge (s : State) : Host.Outcome State Fault Refusal :=
  .next (
    let s1 := s.finishEdge
    match s1.monitor.clock with
    | .present =>
      { s1 with
        monitor := { s1.monitor with align := s1.monitor.align + 1, sinceEdge := 0, sclkRuns := true }
        ticks := s1.ticksAt (s1.monitor.align + 1) }
    | .lost =>
      { s1 with
        monitor := { s1.monitor with sinceEdge := 0, sclkRuns := true }
        ticks := Vector.replicate 8 .noTick })

/-- OUTPUT_TICK (R58), with the ticks that coincide with it (R79, log 36); with no tick due there is no such event
(log 4). -/
def execOutputTick (c : ChanId) (s : State) : Host.Outcome State Fault Refusal :=
  .next (if s.isDue c then s.tickChannel c else s)

/-- The channel's tick now due is a stalled tick that takes the consecutive underrun count to 3 (R108). -/
def State.starves (s : State) (c : ChanId) : Bool :=
  decide (((s.work c).tickWord s.segs (s.contribution (partner c))).2 = .starve)

/-- STARVED (R76): the output tick at which the channel enters HALTED with cause STARVED (log 6), with the ticks that
coincide with it (R79, log 36). -/
def execStarved (c : ChanId) (s : State) : Host.Outcome State Fault Refusal :=
  .next (if s.isDue c && s.starves c then s.tickChannel c else s)

/-- A pulse of a unit restarts at the beginning of this tick: the wait ends and the entry asks for it (R71, R130). -/
def Chan.restartsPulse (ch : Chan) (u : MkUnit) : Bool :=
  decide (ch.state = .waiting) && ch.startRequest && decide (ch.stop ≠ some .immediate)
    && (match ch.entryAt ch.entry with
        | some e =>
          (match u with
           | .mk1 => e.mk1
           | .mk2 => e.mk2)
        | none => false)

/-- A unit's pulse ends at the channel's tick now due: active, counted out, and not restarted (R131). -/
def Chan.pulseEnds (ch : Chan) (u : MkUnit) : Bool :=
  ch.state.playing && (decide ((ch.unit u).mode = .entry) || decide ((ch.unit u).mode = .pass)) && (ch.unit u).active
    && decide ((ch.unit u).remaining = 0) && !ch.restartsPulse u

/-- MARKER_PULSE_END (R131): the unit becomes inactive at the tick after its last counted one; the rest of that tick is
still to be taken (log 6). -/
def execMarkerPulseEnd (c : ChanId) (u : MkUnit) (s : State) : Host.Outcome State Fault Refusal :=
  .next (if s.isDue c && (s.chan c).pulseEnds u then
      s.noteLines c (s.setChan c ((s.chan c).setUnit u { (s.chan c).unit u with active := false }))
    else s)

end Sys2Proof.Machine
end

