-- ==== Sys2Proof/Machine/SegmentCommands.lean ====
section
/-! DEFINITION. The store and segment commands (R16, R22, R23, R26, R27, R30, R32, R33, R39). -/

namespace Sys2Proof.Machine

/-! ### QUERY-STORE (R16) -/

/-- The head run of the free list (R16). -/
def headRun : List PageNo → Nat
  | [] => 0
  | [_] => 1
  | x :: y :: r => if y.val = x.val + 1 then headRun (y :: r) + 1 else 1

/-- How many pages are in a state. -/
def State.pageCount (s : State) (st : PageState) : Nat := s.pages.toList.countP fun r => decide (r.state = st)

/-- How many segment slots are in a state. -/
def State.segCount (s : State) (st : SegState) : Nat := s.segs.toList.countP fun r => decide (r.state = st)

/-- The 15 bytes of R173. -/
def State.storeReport (s : State) : List Byte :=
  putWord s.freeList.length ++ putWord (s.pageCount .held) ++ putWord s.retired.length ++ putWord (s.segCount .free)
    ++ [byteOfNat (s.segCount .loading)] ++ putWord (s.segCount .ready) ++ putWord (s.segCount .doomed)
    ++ putWord (headRun s.freeList)

/-- QUERY-STORE (R16). -/
def execQueryStore (p : Port) (s : State) : Host.Outcome State Fault Refusal :=
  .next (onPort p (frameLength (.queryStore p)) s fun t => t.respond p Code.queryStore .ok t.storeReport)

/-! ### OPEN-LOAD (R22) -/

/-- The checks of R22 in their order; the visibility when all pass. -/
def State.openCheck (s : State) (p : Port) (i : SegId) (declared : Nat) (vis : Byte) : Except Status Visibility :=
  if (s.loadUnit p).phase ≠ .noLoad then .error .loadOpen
  else if (s.seg i).state ≠ .free then .error .segmentState
  else match visOf vis with
    | none => .error .badArgument
    | some v =>
      if declared < 16 ∨ 65536 < declared then .error .badArgument
      else if s.freeList.length < pagesFor declared then .error .noSpace
      else .ok v

/-- An OPEN-LOAD that is taken (R22): the first pages of the free list are given, the slot becomes LOADING and the Load
Unit opens on it. -/
def State.openOn (s : State) (p : Port) (i : SegId) (declared : Nat) (v : Visibility) (label : Option Half) : State :=
  let n := pagesFor declared
  let r : SegRec := ⟨.loading, some p, some v, some declared, none, s.freeList.take n, 0, false, label⟩
  ((s.takePages n).setSeg i r).setLoad p
    { s.loadUnit p with phase := .opened, seg := some i, received := 0, wpos := 0, buffer := [], oversize := false }

/-- OPEN-LOAD (R22). -/
def execOpenLoad (p : Port) (seg : Byte) (declared : Long) (vis : Byte) (label : Option Half) (s : State) :
    Host.Outcome State Fault Refusal :=
  .next (onPort p (frameLength (.openLoad p seg declared vis label)) s fun t =>
    match t.openCheck p (segOf seg) declared.toNat vis with
    | .error e => t.respond p Code.openLoad e [seg]
    | .ok v => (t.openOn p (segOf seg) declared.toNat v label).respond p Code.openLoad .ok
        (seg :: putWord (pagesFor declared.toNat)))

/-! ### LOAD-DATA (R23) -/

/-- The declared length of a Load Unit's load. -/
def State.declaredOf (s : State) (u : LoadUnit) : Nat :=
  match u.seg with
  | some i => (s.seg i).declared.getD 0
  | none => 0

/-- The six cases of R23: the status, and the Load Unit after the command. -/
def loadDataOn (u : LoadUnit) (declared : Nat) (samples : List Sample) : Status × LoadUnit :=
  if u.phase = .noLoad then (.noLoad, u)
  else if samples.length = 0 ∨ 128 < samples.length then (.badArgument, u)
  else if u.oversize then (.oversize, u)
  else if u.phase = .aborting ∨ u.buffer ≠ [] then (.busy, u)
  else if u.received + samples.length ≤ declared then
    (.ok, { u with buffer := u.buffer ++ samples, received := u.received + samples.length })
  else
    (.oversize, { u with
      buffer := u.buffer ++ samples.take (declared - u.received), received := declared, oversize := true })

/-- LOAD-DATA (R23). A drain request that it makes is judged at once (R24, R115). -/
def execLoadData (p : Port) (samples : List Sample) (s : State) : Host.Outcome State Fault Refusal :=
  .next (onPort p (frameLength (.loadData p samples)) s fun t =>
    let r := loadDataOn (t.loadUnit p) (t.declaredOf (t.loadUnit p)) samples
    ((t.setLoad p r.2).respond p Code.loadData r.1 []).arbitrate)

/-! ### CLOSE-LOAD (R26) -/

/-- A load of segment i closed (R26): the status, the resulting length and the number of pages given back. -/
def State.closeOn (s : State) (p : Port) (i : SegId) : State × Status × Nat × Nat :=
  let r := s.seg i
  let received := (s.loadUnit p).received
  let declared := r.declared.getD 0
  if received = declared then
    let s1 := s.setSeg i { r with state := .ready, length := some declared }
    (s1.setLoad p (s1.loadUnit p).closed, .ok, declared, 0)
  else if received < 16 then
    let s1 := s.freeSegment i
    (s1.setLoad p (s1.loadUnit p).closed, .tooShort, 0, r.pages.length)
  else
    let keep := pagesFor received
    let s1 := s.setSeg i { r with state := .ready, length := some received, pages := r.pages.take keep }
    let s2 := s1.givePages (r.pages.drop keep)
    (s2.setLoad p (s2.loadUnit p).closed, .short, received, (r.pages.drop keep).length)

/-- CLOSE-LOAD (R26). -/
def execCloseLoad (p : Port) (s : State) : Host.Outcome State Fault Refusal :=
  .next (onPort p (frameLength (.closeLoad p)) s fun t =>
    let u := t.loadUnit p
    match u.seg with
    | none => t.respond p Code.closeLoad .noLoad []
    | some i =>
      if u.phase = .noLoad then t.respond p Code.closeLoad .noLoad []
      else if u.phase = .aborting ∨ u.buffer ≠ [] then t.respond p Code.closeLoad .busy []
      else
        let (t1, st, length, back) := t.closeOn p i
        t1.respond p Code.closeLoad st (byteOfNat i.val :: (putLongNat length ++ putWord back)))

/-! ### ABORT-LOAD (R27) -/

/-- ABORT-LOAD (R27): abort result DONE 0, PENDING 1 (R173). -/
def execAbortLoad (p : Port) (s : State) : Host.Outcome State Fault Refusal :=
  .next (onPort p (frameLength (.abortLoad p)) s fun t =>
    match (t.loadUnit p).phase with
    | .noLoad => t.respond p Code.abortLoad .noLoad []
    | .aborting => t.respond p Code.abortLoad .ok [1#8]
    | .opened =>
      (t.abortOpen p).respond p Code.abortLoad .ok [if (t.drainInFlight p).isSome then 1#8 else 0#8])

/-! ### DELETE-SEGMENT (R30) -/

/-- The six cases of R30: the status and the state after the command. -/
def State.deleteOn (s : State) (p : Port) (i : SegId) : Except Status State :=
  let r := s.seg i
  match r.state with
  | .free => .error .segmentState
  | .loading => if r.owner = some p then .error .segmentState else .error .notOwner
  | .doomed => if r.owner = some p then .ok s else .error .notOwner
  | .ready =>
    if r.owner = some p then
      if r.refs = 0 then .ok (s.freeSegment i) else .ok (s.setSeg i { r with state := .doomed })
    else .error .notOwner

/-- DELETE-SEGMENT (R30). -/
def execDeleteSegment (p : Port) (seg : Byte) (s : State) : Host.Outcome State Fault Refusal :=
  .next (onPort p (frameLength (.deleteSegment p seg)) s fun t =>
    match t.deleteOn p (segOf seg) with
    | .error e => t.respond p Code.deleteSegment e [seg]
    | .ok t1 =>
      let r := t1.seg (segOf seg)
      (t1.respond p Code.deleteSegment .ok (seg :: r.state.code :: putWord r.refs)).settleCancelled)

/-! ### SET-VISIBILITY (R32) -/

/-- The checks of R32 in their order. -/
def State.visibilityCheck (s : State) (p : Port) (i : SegId) (vis : Byte) : Except Status Visibility :=
  match visOf vis with
  | none => .error .badArgument
  | some v =>
    if (s.seg i).state = .free then .error .segmentState
    else if (s.seg i).owner ≠ some p then .error .notOwner
    else if (s.seg i).state = .loading then .error .segmentState
    else .ok v

/-- SET-VISIBILITY (R32). -/
def execSetVisibility (p : Port) (seg vis : Byte) (s : State) : Host.Outcome State Fault Refusal :=
  .next (onPort p (frameLength (.setVisibility p seg vis)) s fun t =>
    match t.visibilityCheck p (segOf seg) vis with
    | .error e => t.respond p Code.setVisibility e [seg]
    | .ok v =>
      (t.setSeg (segOf seg) { t.seg (segOf seg) with vis := some v }).respond p Code.setVisibility .ok [])

/-! ### READ-SEGMENT (R33, R34) -/

/-- The segment is of no use to the port: owned by the other port and PRIVATE (R33, R48, R60). -/
def SegRec.hiddenFrom (r : SegRec) (p : Port) : Bool := decide (r.owner ≠ some p) && decide (r.vis = some .ownerOnly)

/-- The checks of R33 in their order; the readback when all pass (R33, R34). -/
def State.readCheck (s : State) (p : Port) (i : SegId) (offset count : Nat) : Except Status Readback :=
  let r := s.seg i
  if count < 1 ∨ 128 < count then .error .badArgument
  else if r.state = .free then .error .segmentState
  else if r.hiddenFrom p then .error .notVisible
  else if r.state = .loading then .error .segmentState
  else
    let length := r.length.getD 0
    if length ≤ offset then .error .badArgument
    else .ok ⟨i, offset, offset, min count (length - offset), [], [], decide (length < offset + count), .live⟩

/-- READ-SEGMENT (R33, R34): an accepted one puts the port in EXECUTING (R167), and its read request is judged (R115). -/
def execReadSegment (p : Port) (seg : Byte) (offset : Half) (count : Byte) (s : State) :
    Host.Outcome State Fault Refusal :=
  .next (onPort p (frameLength (.readSegment p seg offset count)) s fun t =>
    match t.readCheck p (segOf seg) offset.toNat count.toNat with
    | .error e => t.respond p Code.readSegment e [seg]
    | .ok rb =>
      ((t.setLoad p { t.loadUnit p with readback := some rb }).setPort p
        { t.port p with proto := .executing }).arbitrate)

/-! ### QUERY-SEGMENT (R39) -/

/-- What QUERY-SEGMENT adds for a LOADING slot: its owner's Load Unit (R39). -/
def loadReport (u : LoadUnit) : List Byte :=
  u.phase.code :: (putLongNat u.received ++ putLongNat u.wpos ++ putFlag u.oversize)

/-- The record of a segment as R39 reports it (log 15). -/
def State.segmentReport (s : State) (i : SegId) : List Byte :=
  let r := s.seg i
  byteOfNat i.val :: r.state.code ::
    (putOpt putByte (r.owner.map Port.code) ++ putOpt putByte (r.vis.map Visibility.code)
      ++ putOpt putLongNat r.declared ++ putOpt putLongNat r.length ++ putWord r.pages.length ++ putWord r.refs
      ++ putFlag r.damaged ++ putOpt putHalf r.label
      ++ (match r.state, r.owner with
          | .loading, some q => loadReport (s.loadUnit q)
          | _, _ => []))

/-- QUERY-SEGMENT (R39). -/
def execQuerySegment (p : Port) (seg : Byte) (s : State) : Host.Outcome State Fault Refusal :=
  .next (onPort p (frameLength (.querySegment p seg)) s fun t =>
    t.respond p Code.querySegment .ok (t.segmentReport (segOf seg)))

end Sys2Proof.Machine
end

