-- ==== Sys2Proof/Machine/ListCommands.lean ====
section
/-! DEFINITION. The sequence-list commands (R48 to R52, R55, R56). -/

namespace Sys2Proof.Machine

/-- The checks that open every changing command on one channel: the channel byte, then the claim (R154). -/
def State.claimedChan (s : State) (p : Port) (b : Byte) : Except Status ChanId :=
  match chanOf b with
  | none => .error .badArgument
  | some c => if s.controls p c then .ok c else .error .notController

/-! ### PUT-ENTRY (R48 to R51) -/

/-- Checks 3 to 8 of R48 on channel c; the record when all pass. -/
def State.putCheck (s : State) (p : Port) (c : ChanId) (index : Nat) (arg : EntryArg) : Except Status Entry :=
  match entryOf arg with
  | none => .error .badArgument
  | some e =>
    let ch := s.chan c
    if ch.state.active then .error .channelActive
    else if ch.list.length < index then .error .badIndex
    else if index = ch.list.length ∧ ch.list.length = 64 then .error .listFull
    else if (s.seg e.seg).state ≠ .ready then .error .segmentState
    else if (s.seg e.seg).hiddenFrom p then .error .notVisible
    else .ok e

/-- An append or a replace (R49, R50): the new record's segment is bound, then the old one's released. -/
def State.putOn (s : State) (c : ChanId) (index : Nat) (e : Entry) : State :=
  let ch := s.chan c
  match ch.list[index]? with
  | none => (s.setChan c { ch with list := ch.list ++ [e] }).bindSegment e.seg
  | some old => ((s.setChan c { ch with list := ch.list.set index e }).bindSegment e.seg).releaseSegment old.seg

/-- The payload of R51 (log 15). -/
def State.putReport (before after : State) (c : ChanId) (index : Nat) (e : Entry) : List Byte :=
  byteOfNat c.val :: byteOfNat index :: byteOfNat (after.chan c).list.length :: byteOfNat e.seg.val
    :: (putWord (after.seg e.seg).refs
      ++ (match (before.chan c).list[index]? with
          | none => []
          | some old =>
            byteOfNat old.seg.val :: (putWord (after.seg old.seg).refs
              ++ putFlag (decide ((after.seg old.seg).state = .free)))))

/-- PUT-ENTRY (R48). -/
def execPutEntry (p : Port) (ch index : Byte) (entry : EntryArg) (s : State) : Host.Outcome State Fault Refusal :=
  .next (onPort p (frameLength (.putEntry p ch index entry)) s fun t =>
    match t.claimedChan p ch with
    | .error e => t.respond p Code.putEntry e [ch, index]
    | .ok c =>
      match t.putCheck p c index.toNat entry with
      | .error e => t.respond p Code.putEntry e [ch, index]
      | .ok e =>
        let t1 := t.putOn c index.toNat e
        (t1.respond p Code.putEntry .ok (t.putReport t1 c index.toNat e)).settleCancelled)

/-! ### TRIM-LIST (R52) -/

/-- Entries released one at a time, in the order given; the segments freed, in the order freed (R47, R52). -/
def State.releaseAll : State → List Entry → State × List SegId
  | s, [] => (s, [])
  | s, e :: r =>
    let rest := (s.releaseSegment e.seg).releaseAll r
    (rest.1, if s.releaseFrees e.seg then e.seg :: rest.2 else rest.2)

/-- The checks of R52 on channel c. -/
def State.trimCheck (s : State) (c : ChanId) (m : Nat) : Option Status :=
  if (s.chan c).state.active then some .channelActive
  else if (s.chan c).list.length < m then some .badIndex
  else none

/-- A list cut to its first m entries, the others released in ascending order (R52). -/
def State.trimOn (s : State) (c : ChanId) (m : Nat) : State × List SegId :=
  (s.setChan c { s.chan c with list := (s.chan c).list.take m }).releaseAll ((s.chan c).list.drop m)

/-- TRIM-LIST (R52). -/
def execTrimList (p : Port) (ch newLength : Byte) (s : State) : Host.Outcome State Fault Refusal :=
  .next (onPort p (frameLength (.trimList p ch newLength)) s fun t =>
    match t.claimedChan p ch with
    | .error e => t.respond p Code.trimList e []
    | .ok c =>
      match t.trimCheck c newLength.toNat with
      | some e => t.respond p Code.trimList e []
      | none =>
        let r := t.trimOn c newLength.toNat
        (r.1.respond p Code.trimList .ok
          (ch :: newLength :: byteOfNat ((t.chan c).list.length - newLength.toNat) :: byteOfNat r.2.length
            :: r.2.map fun i => byteOfNat i.val)).settleCancelled)

/-! ### QUERY-ENTRY and QUERY-LIST (R55, R56) -/

/-- QUERY-ENTRY (R55). -/
def execQueryEntry (p : Port) (ch index : Byte) (s : State) : Host.Outcome State Fault Refusal :=
  .next (onPort p (frameLength (.queryEntry p ch index)) s fun t =>
    match chanOf ch with
    | none => t.respond p Code.queryEntry .badArgument []
    | some c =>
      match (t.chan c).list[index.toNat]? with
      | none => t.respond p Code.queryEntry .badIndex []
      | some e =>
        let r := t.seg e.seg
        t.respond p Code.queryEntry .ok
          (ch :: index :: (e.bytes ++ (r.state.code :: (putLongNat (r.length.getD 0) ++ putWord r.refs)))))

/-- The lowest index from which a condition holds, counting from n. -/
def firstIndex (f : Entry → Bool) : List Entry → Nat → Option Nat
  | [], _ => none
  | e :: r, n => if f e then some n else firstIndex f r (n + 1)

/-- The entry's next is present and names no entry of a list of n (R44). -/
def Entry.unresolved (n : Nat) (e : Entry) : Bool :=
  match e.next with
  | some t => decide (n ≤ t.val)
  | none => false

/-- The list as R56 reports it (log 16). -/
def State.listReport (s : State) (c : ChanId) : List Byte :=
  let l := (s.chan c).list
  byteOfNat c.val :: byteOfNat l.length ::
    (byteOfNat l.length :: (l.map fun e => byteOfNat e.seg.val))
      ++ (byteOfNat l.length :: (l.flatMap fun e => putOpt putByte (e.next.map fun t => byteOfNat t.val)))
      ++ putOpt putByte ((firstIndex (Entry.unresolved l.length) l 0).map byteOfNat)
      ++ putOpt putByte ((firstIndex (fun e => decide ((s.seg e.seg).state = .doomed)) l 0).map byteOfNat)

/-- QUERY-LIST (R56). -/
def execQueryList (p : Port) (ch : Byte) (s : State) : Host.Outcome State Fault Refusal :=
  .next (onPort p (frameLength (.queryList p ch)) s fun t =>
    match chanOf ch with
    | none => t.respond p Code.queryList .badArgument []
    | some c => t.respond p Code.queryList .ok (t.listReport c))

end Sys2Proof.Machine
end

