-- ==== Sys2Proof/Machine/ParamCommands.lean ====
section
/-! DEFINITION. The parameter and marker commands (R82, R129, R140 to R142, R147). -/

namespace Sys2Proof.Machine

/-! ### SET-STATIC (R82, R83) -/

/-- A numeric parameter as written: the given value at the nearest bound, or the old one; and whether it was clamped. -/
def clampOpt (lo hi old : Nat) : Option Nat → Nat × Bool
  | none => (old, false)
  | some n => clampNat lo hi n

/-- Static parameters with every given one written (R82), and whether a value was clamped; none when an enumeration or
source value is not a named one (check 4). -/
def StaticParams.write (old : StaticParams) (a : StaticArgs) : Option (StaticParams × Bool) :=
  match optOf interpOf a.interp, optOf combineOf a.combine, optOf endModeOf a.endMode, optOf subscriptionOf a.startSrc,
      optOf subscriptionOf a.advSrc, optOf subscriptionOf a.updSrc with
  | some interp, some combine, some endMode, some startSrc, some advSrc, some updSrc =>
    let divider := clampOpt 1 4096 old.divider (a.divider.map BitVec.toNat)
    let prio := clampOpt 0 3 old.prio.val (a.prio.map BitVec.toNat)
    some ({ divider := divider.1
            interp := interp.getD old.interp
            combine := combine.getD old.combine
            endMode := endMode.getD old.endMode
            idle := a.idle.getD old.idle
            park := a.park.getD old.park
            prio := Fin.ofNat 4 prio.1
            startSrc := startSrc.getD old.startSrc
            advSrc := advSrc.getD old.advSrc
            updSrc := updSrc.getD old.updSrc }, divider.2 || prio.2)
  | _, _, _, _, _, _ => none

/-- Check 5 of R82: the partner is active and adds this channel's value. -/
def State.partnerBound (s : State) (c : ChanId) : Bool :=
  (s.chan (partner c)).state.active && decide ((s.chan (partner c)).stat.combine = .addPartner)

/-- Checks 3 to 5 of R82; the parameters and the clamp mark when all pass. They are made of a command that names no
parameter too (log 37). -/
def State.staticCheck (s : State) (c : ChanId) (a : StaticArgs) : Except Status (StaticParams × Bool) :=
  if (s.chan c).state.active then .error .channelActive
  else match (s.chan c).stat.write a with
    | none => .error .badArgument
    | some r => if a.divider.isSome && s.partnerBound c then .error .partnerBound else .ok r

/-- Static parameters written; a changed idle level in IDLE, or park level in HALTED, goes to the lane (R83). -/
def Chan.writeStatic (ch : Chan) (st : StaticParams) : Chan :=
  let ch1 := { ch with stat := st }
  if ch.state = .idle ∧ st.idle ≠ ch.stat.idle then ch1.place st.idle
  else if ch.state = .halted ∧ st.park ≠ ch.stat.park then ch1.place st.park
  else ch1

/-- Every static parameter, in the order of R83. -/
def StaticParams.bytes (t : StaticParams) : List Byte :=
  putWord t.divider ++ [t.interp.code, t.combine.code, t.endMode.code] ++ putHalf t.idle ++ putHalf t.park
    ++ [byteOfNat t.prio.val, subscriptionCode t.startSrc, subscriptionCode t.advSrc, subscriptionCode t.updSrc]

/-- SET-STATIC (R82). -/
def execSetStatic (p : Port) (ch : Byte) (args : StaticArgs) (s : State) : Host.Outcome State Fault Refusal :=
  .next (onPort p (frameLength (.setStatic p ch args)) s fun t =>
    match t.claimedChan p ch with
    | .error e => t.respond p Code.setStatic e []
    | .ok c =>
      match t.staticCheck c args with
      | .error e => t.respond p Code.setStatic e []
      | .ok (st, clamped) =>
        (t.setChan c ((t.chan c).writeStatic st)).respond p Code.setStatic (if clamped then .clamped else .ok) st.bytes)

/-! ### SET-LIVE (R140 to R142) -/

/-- The values given, at their nearest bounds (R140), as a record. -/
def liveRecord (a : LiveArgs) : PendingRec where
  gain := a.gain.map fun w => (clampSample w).1
  offset := a.offset.map fun w => (clampSample w).1
  step := a.step.map fun w => (clampStep w).1
  th1 := a.th1.map fun w => (clampSample w).1
  th2 := a.th2.map fun w => (clampSample w).1
  point := none
  group := false

/-- The fields that were clamped, by their place in the order of R138 (log 17). -/
def clampedFields (a : LiveArgs) : List Byte :=
  (if a.gain.any (fun w => (clampSample w).2) then [0#8] else [])
    ++ (if a.offset.any (fun w => (clampSample w).2) then [1#8] else [])
    ++ (if a.step.any (fun w => (clampStep w).2) then [2#8] else [])
    ++ (if a.th1.any (fun w => (clampSample w).2) then [3#8] else [])
    ++ (if a.th2.any (fun w => (clampSample w).2) then [4#8] else [])

/-- Values staged (R142): given fields replace, others stay; the point is taken unless the record stays empty. -/
def PendingRec.stage (r given : PendingRec) (pt : ApplyPoint) : PendingRec :=
  let gain := given.gain.or r.gain
  let offset := given.offset.or r.offset
  let step := given.step.or r.step
  let th1 := given.th1.or r.th1
  let th2 := given.th2.or r.th2
  let r1 : PendingRec := ⟨gain, offset, step, th1, th2, r.point, r.group⟩
  if r1.isEmpty then r else { r1 with point := some pt }

/-- The apply point of a non-empty record is moved by the one given (R142). -/
def PendingRec.movedBy (r : PendingRec) (pt : ApplyPoint) : Bool := !r.isEmpty && decide (r.point ≠ some pt)

/-- The five live parameters as reported (R173). -/
def LiveParams.bytes (l : LiveParams) : List Byte :=
  putHalf l.gain ++ putHalf l.offset ++ putLongNat l.step ++ putHalf l.th1 ++ putHalf l.th2

/-- The five optional fields of a record, as reported (R142, R182). -/
def PendingRec.fields (r : PendingRec) : List Byte :=
  putOpt putHalf r.gain ++ putOpt putHalf r.offset ++ putOpt putLongNat r.step ++ putOpt putHalf r.th1
    ++ putOpt putHalf r.th2

/-- A record that may be empty, as SET-LIVE reports it: its apply point is optional with it (R142, log 17). -/
def PendingRec.bytes (r : PendingRec) : List Byte := r.fields ++ putOpt putByte (r.point.map ApplyPoint.code)

/-- A SET-LIVE that passes its checks: written at once outside play (R141), staged in play (R142). -/
def Chan.setLive (ch : Chan) (given : PendingRec) (pt : ApplyPoint) : Chan :=
  if ch.state.playing then { ch with staged := ch.staged.stage given pt }
  else { ch with live := ch.live.overwrite given }

/-- The status of a SET-LIVE that passes its checks (R141, R142). -/
def Chan.setLiveStatus (ch : Chan) (a : LiveArgs) (pt : ApplyPoint) : Status :=
  if ch.state.playing && ch.staged.movedBy pt then .applyMoved
  else if clampedFields a = [] then .ok else .clamped

/-- The payload of R142. Outside play R141 names no payload, and the model sends the same one there (log 17). -/
def liveReport (c : ChanId) (before after : Chan) (a : LiveArgs) : List Byte :=
  byteOfNat c.val :: (after.live.bytes ++ after.staged.bytes ++ putOpt putByte (before.staged.point.map ApplyPoint.code)
    ++ (byteOfNat (clampedFields a).length :: clampedFields a))

/-- SET-LIVE (R140). -/
def execSetLive (p : Port) (ch : Byte) (point : Option Byte) (args : LiveArgs) (s : State) :
    Host.Outcome State Fault Refusal :=
  .next (onPort p (frameLength (.setLive p ch point args)) s fun t =>
    match t.claimedChan p ch with
    | .error e => t.respond p Code.setLive e []
    | .ok c =>
      match point.bind pointOf with
      | none => t.respond p Code.setLive .badArgument []
      | some pt =>
        let ch1 := (t.chan c).setLive (liveRecord args) pt
        (t.setChan c ch1).respond p Code.setLive ((t.chan c).setLiveStatus args pt) (liveReport c (t.chan c) ch1 args))

/-! ### APPLY-GROUP (R147) -/

/-- One channel joined to the group. -/
def Chan.joinGroup (ch : Chan) : Chan :=
  if ch.state.playing && !ch.staged.isEmpty then { ch with staged := { ch.staged with group := true } } else ch

/-- APPLY-GROUP (R147); the payload is the mask of all channels whose group request is set. -/
def execApplyGroup (p : Port) (mask : Byte) (s : State) : Host.Outcome State Fault Refusal :=
  .next (onPort p (frameLength (.applyGroup p mask)) s fun t =>
    if mask = 0#8 then t.respond p Code.applyGroup .badArgument []
    else if !t.controlsAll p mask then t.respond p Code.applyGroup .notController []
    else
      let t1 := (maskChans mask).foldl (fun u c => u.setChan c (u.chan c).joinGroup) t
      t1.respond p Code.applyGroup .ok [maskOf fun c => (t1.chan c).staged.group])

/-! ### SET-MARKER (R129) -/

/-- A marker's configuration with every given field written, and whether one was clamped; none when a mode or polarity is
not a named one (check 4). -/
def Marker.write (m : Marker) (a : MarkerArgs) : Option (Marker × Bool) :=
  match optOf markerModeOf a.mode, optOf polarityOf a.polarity with
  | some mode, some polarity =>
    let width := clampOpt 1 65535 m.width (a.width.map BitVec.toNat)
    let hyst := clampOpt 0 4095 m.hyst (a.hyst.map BitVec.toNat)
    some ({ m with
            mode := mode.getD m.mode, width := width.1, polarity := polarity.getD m.polarity, hyst := hyst.1 },
          width.2 || hyst.2)
  | _, _ => none

/-- A marker's configuration, in the order of R129. -/
def Marker.bytes (m : Marker) : List Byte := m.mode.code :: (putWord m.width ++ (m.polarity.code :: putWord m.hyst))

/-- The checks of R129 in their order. -/
def State.markerCheck (s : State) (p : Port) (ch unit : Byte) (a : MarkerArgs) :
    Except Status (ChanId × MkUnit × Marker × Bool) :=
  match chanOf ch, unitOf unit with
  | some c, some u =>
    if !s.controls p c then .error .notController
    else if (s.chan c).state.active then .error .channelActive
    else match ((s.chan c).unit u).write a with
      | none => .error .badArgument
      | some (m, clamped) => .ok (c, u, m, clamped)
  | _, _ => .error .badArgument

/-- SET-MARKER (R129). -/
def execSetMarker (p : Port) (ch unit : Byte) (args : MarkerArgs) (s : State) : Host.Outcome State Fault Refusal :=
  .next (onPort p (frameLength (.setMarker p ch unit args)) s fun t =>
    match t.markerCheck p ch unit args with
    | .error e => t.respond p Code.setMarker e []
    | .ok (c, u, m, clamped) =>
      (t.setChan c ((t.chan c).setUnit u m)).respond p Code.setMarker (if clamped then .clamped else .ok) m.bytes)

end Sys2Proof.Machine
end

