-- ==== Sys2Proof/Machine/PlayCommands.lean ====
section
/-! DEFINITION. The playback commands (R59 to R63, R65, R72, R74, R75, R77) and the channel snapshot (R182). -/

namespace Sys2Proof.Machine

/-! ### ARM (R59 to R61) -/

/-- The six checks of R60 on channel c for port p: the status, the number of the check and its entry index. -/
def State.armFailure (s : State) (p : Port) (c : ChanId) : Option (Status × Nat × Option Nat) :=
  let ch := s.chan c
  let l := ch.list
  if l = [] then some (.emptyList, 1, none)
  else match firstIndex (fun e => decide ((s.seg e.seg).state ≠ .ready)) l 0 with
    | some j => some (.segmentState, 2, some j)
    | none =>
      match firstIndex (fun e => (s.seg e.seg).hiddenFrom p) l 0 with
      | some j => some (.notVisible, 3, some j)
      | none =>
        match firstIndex (Entry.unresolved l.length) l 0 with
        | some j => some (.badIndex, 4, some j)
        | none =>
          match firstIndex (fun e => (e.wait || e.leave) && ch.stat.advSrc.isNone) l 0 with
          | some j => some (.noSource, 5, some j)
          | none =>
            if ch.stat.combine = .addPartner ∧ (s.chan (partner c)).stat.divider ≠ ch.stat.divider then
              some (.partnerRate, 6, none)
            else none

/-- The effects of an ARM that is taken (R61). The scaled value is 0 and the clip episode closed from ARM on (R86, R97). -/
def Work.arm (c : ChanId) (w : Work) : Work :=
  let w1 := w.flush c
  { w1 with ch := { w1.ch.clearLatches with
      cursor := some ⟨0, 0#16, 0⟩, startPending := false, startRequest := false, entry := 0, pass := 0#16, pos := 0,
      consec := 0, scaled := 0, clipOpen := false, state := .arming } }

/-- ARM (R59). From this event the Fetcher's request is judged (R61, R115). -/
def execArm (p : Port) (ch : Byte) (s : State) : Host.Outcome State Fault Refusal :=
  .next (onPort p (frameLength (.arm p ch)) s fun t =>
    match t.claimedChan p ch with
    | .error e => t.respond p Code.arm e [ch]
    | .ok c =>
      if (t.chan c).state ≠ .idle then t.respond p Code.arm .channelState [ch]
      else if t.monitor.clock = .lost then t.respond p Code.arm .noClock [ch]
      else match t.armFailure p c with
        | some (st, check, j) =>
          t.respond p Code.arm st (ch :: byteOfNat check :: putOpt putByte (j.map byteOfNat))
        | none => ((t.putWork c ((t.work c).arm c)).respond p Code.arm .ok [ch]).arbitrate)

/-! ### DISARM (R63) -/

/-- ARMING or ARMED given up (R63): flushed, start-pending and the latches cleared, IDLE. -/
def Work.disarm (c : ChanId) (w : Work) : Work :=
  let w1 := w.flush c
  { w1 with ch := { w1.ch.clearLatches with startPending := false, state := .idle } }

/-- DISARM (R63). -/
def execDisarm (p : Port) (ch : Byte) (s : State) : Host.Outcome State Fault Refusal :=
  .next (onPort p (frameLength (.disarm p ch)) s fun t =>
    match t.claimedChan p ch with
    | .error e => t.respond p Code.disarm e []
    | .ok c =>
      match (t.chan c).state with
      | .arming | .armed => (t.putWork c ((t.work c).disarm c)).respond p Code.disarm .ok []
      | .idle | .running | .waiting | .stopping | .halted => t.respond p Code.disarm .channelState [])

/-! ### START (R65) -/

/-- A channel accepts START: ARMING or ARMED. -/
def ChanState.startable : ChanState → Bool
  | .arming | .armed => true
  | .idle | .running | .waiting | .stopping | .halted => false

/-- One channel dealt with by START (R65). -/
def Chan.startCommand (ch : Chan) : Chan := if ch.state.startable then { ch with startPending := true } else ch

/-- The outcomes of START and STOP, one byte per channel of the mask: accepted 0, CHANNEL-STATE 1 (R173, log 16). -/
def outcomeList (mask : Byte) (accepted : ChanId → Bool) : List Byte :=
  byteOfNat (maskChans mask).length :: (maskChans mask).map fun c => if accepted c then 0#8 else 1#8

/-- The status of START and STOP (R65, R72). -/
def maskStatus (mask : Byte) (accepted : ChanId → Bool) : Status :=
  if (maskChans mask).all accepted then .ok else .channelState

/-- START (R65). -/
def execStart (p : Port) (mask : Byte) (s : State) : Host.Outcome State Fault Refusal :=
  .next (onPort p (frameLength (.start p mask)) s fun t =>
    if mask = 0#8 then t.respond p Code.start .badArgument []
    else if !t.controlsAll p mask then t.respond p Code.start .notController []
    else if t.monitor.clock = .lost then t.respond p Code.start .noClock []
    else
      let accepted := fun c => (t.chan c).state.startable
      ((maskChans mask).foldl (fun u c => u.setChan c (u.chan c).startCommand) t).respond p Code.start
        (maskStatus mask accepted) (outcomeList mask accepted))

/-! ### STOP (R72) -/

/-- Strength of a stop point: IMMEDIATE above AT-PASS above AT-LIST-END (4.5). -/
def StopPoint.strength : StopPoint → Nat
  | .immediate => 2
  | .atPass => 1
  | .atListEnd => 0

/-- A mode is stronger than the stop point that stands, if one does. -/
def StopPoint.stronger (mode : StopPoint) (present : Option StopPoint) : Bool :=
  match present with
  | none => true
  | some q => decide (q.strength < mode.strength)

/-- The flush of a STOP with mode IMMEDIATE (R113). -/
def Work.flushFor (c : ChanId) (mode : StopPoint) (w : Work) : Work :=
  if mode = .immediate then w.flush c else w

/-- One channel dealt with by STOP (R72, R113). -/
def Work.stopCommand (c : ChanId) (mode : StopPoint) (w : Work) : Work :=
  match w.ch.state with
  | .idle | .halted => w
  | .arming | .armed => w.disarm c
  | .running => ({ w with ch := { w.ch with stop := some mode, state := .stopping } }).flushFor c mode
  | .stopping =>
    (if mode.stronger w.ch.stop then { w with ch := { w.ch with stop := some mode } } else w).flushFor c mode
  | .waiting => ({ w with ch := { w.ch with stop := some .immediate } }).flush c

/-- STOP (R72). -/
def execStop (p : Port) (mask mode : Byte) (s : State) : Host.Outcome State Fault Refusal :=
  .next (onPort p (frameLength (.stop p mask mode)) s fun t =>
    match stopModeOf mode with
    | none => t.respond p Code.stop .badArgument []
    | some m =>
      if mask = 0#8 then t.respond p Code.stop .badArgument []
      else if !t.controlsAll p mask then t.respond p Code.stop .notController []
      else
        let accepted := fun c => decide ((t.chan c).state ≠ .halted)
        ((maskChans mask).foldl (fun u c => u.putWork c ((u.work c).stopCommand c m)) t).respond p Code.stop
          (maskStatus mask accepted) (outcomeList mask accepted))

/-! ### JUMP (R74, R75) -/

/-- Checks 3 to 5 of R74; the target when all pass. -/
def Chan.jumpCheck (ch : Chan) (target : Byte) : Except Status EntryIx :=
  if !ch.state.playing then .error .channelState
  else if ch.stop = some .atPass ∨ ch.stop = some .immediate then .error .stopPending
  else if ch.list.length ≤ target.toNat then .error .badIndex
  else if h : target.toNat < 64 then .ok ⟨target.toNat, h⟩
  else .error .badIndex

/-- A JUMP taken in WAITING (R75, R112). -/
def Work.jumpWaiting (c : ChanId) (t : EntryIx) (w : Work) : Work :=
  let ch := { w.ch with entry := t, pass := 0#16, pos := 0, startRequest := false }
  let waits := match ch.entryAt t with
    | some e => e.wait
    | none => false
  let ch1 := if !waits then { ch with startRequest := true }
    else if ch.advLatch then { ch with advLatch := false, startRequest := true }
    else ch
  ({ w with ch := ch1 }).refetchFrom c t

/-- A JUMP taken (R74): at once in WAITING, else stored for the next pass end and the Fetcher redirected (R110). -/
def Work.jumpCommand (c : ChanId) (t : EntryIx) (w : Work) : Work :=
  if w.ch.state = .waiting then w.jumpWaiting c t
  else ({ w with ch := { w.ch with jump := some t } }).jumpRedirect c t

/-- JUMP (R74): the payload is the target replaced, if one was (log 20). -/
def execJump (p : Port) (ch target : Byte) (s : State) : Host.Outcome State Fault Refusal :=
  .next (onPort p (frameLength (.jump p ch target)) s fun t =>
    match t.claimedChan p ch with
    | .error e => t.respond p Code.jump e []
    | .ok c =>
      match (t.chan c).jumpCheck target with
      | .error e => t.respond p Code.jump e []
      | .ok j =>
        let replaced := if (t.chan c).state = .waiting then none else (t.chan c).jump
        ((t.putWork c ((t.work c).jumpCommand c j)).respond p Code.jump .ok
          (putOpt putByte (replaced.map fun k => byteOfNat k.val))).arbitrate)

/-! ### CLEAR-FAULT (R77) -/

/-- A fault record as reported: cause, entry, pass, play-order index, state before (R76). -/
def FaultRec.bytes (f : FaultRec) : List Byte :=
  f.cause.code :: byteOfNat f.entry.val :: (putHalf f.pass ++ putWord f.index ++ [f.before.code])

/-- The fault cleared: IDLE, the count 0, the idle level on the lane (R77). -/
def Chan.clearFault (ch : Chan) : Chan := ({ ch with state := .idle, fault := none, consec := 0 }).place ch.stat.idle

/-- CLEAR-FAULT (R77). -/
def execClearFault (p : Port) (ch : Byte) (s : State) : Host.Outcome State Fault Refusal :=
  .next (onPort p (frameLength (.clearFault p ch)) s fun t =>
    match t.claimedChan p ch with
    | .error e => t.respond p Code.clearFault e []
    | .ok c =>
      if (t.chan c).state = .halted then
        (t.setChan c (t.chan c).clearFault).respond p Code.clearFault .ok
          (match (t.chan c).fault with
           | some f => f.bytes
           | none => [])
      else t.respond p Code.clearFault .channelState [])

/-! ### QUERY-CHANNEL (R182) -/

/-- A non-empty record in the snapshot (R182): its five optional fields, its apply point and its group request. A non-empty
record always has an apply point (R139); for one without, which no run reaches, the byte is 0 (log 28). -/
def PendingRec.snapshot (r : PendingRec) : List Byte :=
  r.fields ++ [(r.point.map ApplyPoint.code).getD 0#8] ++ putFlag r.group

/-- The snapshot of R182, its fields in order (log 18). -/
def State.channelReport (s : State) (c : ChanId) : List Byte :=
  let ch := s.chan c
  byteOfNat c.val :: ch.state.code :: controllerCode (s.claimOf c).controller ::
    (putFlag (s.claimOf c).yieldable ++ [byteOfNat ch.entry.val] ++ putHalf ch.pass ++ putLongNat ch.pos
      ++ [byteOfNat ch.fifo.length] ++ putWord ch.consec ++ putWord ch.totalUnder ++ putWord ch.clipCount
      ++ putHalf ch.pass ++ ch.live.bytes
      ++ putOpt PendingRec.snapshot (if ch.staged.isEmpty then none else some ch.staged)
      ++ putOpt FaultRec.bytes ch.fault ++ putOpt putByte (ch.stop.map StopPoint.code)
      ++ putOpt putByte (ch.jump.map fun k => byteOfNat k.val))

/-- QUERY-CHANNEL (R182). -/
def execQueryChannel (p : Port) (ch : Byte) (s : State) : Host.Outcome State Fault Refusal :=
  .next (onPort p (frameLength (.queryChannel p ch)) s fun t =>
    match chanOf ch with
    | none => t.respond p Code.queryChannel .badArgument []
    | some c => t.respond p Code.queryChannel .ok (t.channelReport c))

end Sys2Proof.Machine
end

