-- ==== Sys2Proof/Machine/PortCommands.lean ====
section
/-! DEFINITION. The commands and transactions of a port itself (R166, R168, R170, R172, R177, R180, R181) and the resets
(R57, R119, R161, R172). -/

namespace Sys2Proof.Machine

/-! ### IDENTIFY (R177) -/

/-- The fixed values of R177, 10 bytes. -/
def identityReport : List Byte := putWord 0x4B21 ++ putWord 0x8540 ++ [1#8] ++ putWord 2048 ++ putWord 256 ++ [8#8]

/-- IDENTIFY (R177). -/
def execIdentify (p : Port) (s : State) : Host.Outcome State Fault Refusal :=
  .next (onPort p (frameLength (.identify p)) s fun t => t.respond p Code.identify .ok identityReport)

/-! ### Event sets (R180, R181) -/

/-- SET-EVENT-ENABLE (R180): the enable word before and after. -/
def execSetEventEnable (p : Port) (kinds : BitVec 15) (s : State) : Host.Outcome State Fault Refusal :=
  .next (onPort p (frameLength (.setEventEnable p kinds)) s fun t =>
    (t.setPort p { t.port p with enable := kinds }).respond p Code.setEventEnable .ok
      (putHalf ((t.port p).enable.setWidth 16) ++ putHalf (kinds.setWidth 16)))

/-- The event list of R176: count, MORE, entries. -/
def eventReport (l : List EventEntry) : List Byte :=
  byteOfNat (l.take 32).length :: (putFlag (!(l.drop 32).isEmpty) ++ (l.take 32).flatMap EventEntry.bytes)

/-- TAKE-EVENTS (R181): the first 32 entries are reported and removed. -/
def execTakeEvents (p : Port) (s : State) : Host.Outcome State Fault Refusal :=
  .next (onPort p (frameLength (.takeEvents p)) s fun t =>
    (t.setPort p { t.port p with events := (t.port p).events.drop 32 }).respond p Code.takeEvents .ok
      (eventReport (t.port p).events))

/-! ### Frames refused or discarded (R166, R168) -/

/-- The status of a frame refused by R166. -/
def statusOf : FrameError → Status
  | .badFrame => .badFrame
  | .unknownCommand => .unknownCommand
  | .badShape => .badArgument

/-- A command transaction of `clocked` bytes released while the port is EXECUTING: OVERRUN set, its bytes discarded (R168).
In the other states there is no such event (log 4). -/
def State.discardFrame (s : State) (p : Port) (clocked : Nat) : State :=
  if (s.port p).proto = .executing then onPort p clocked s id else s

/-- BAD_FRAME (R166): answered with an empty payload, or discarded in EXECUTING. No bytes, or a first byte C3h, are no
command transaction (R164); a frame that passes the seven checks is not this event (log 21). -/
def execBadFrame (p : Port) (bytes : List Byte) (s : State) : Host.Outcome State Fault Refusal :=
  .next (if bytes.head?.all (· = readByte) then s
    else match decodeFrame p bytes with
      | .error e => onPort p bytes.length s fun t => t.respond p (echoOf bytes) (statusOf e) []
      | .ok _ => s.discardFrame p bytes.length)

/-- OVERRUN (R168). The event does not say how many bytes the frame has: what data output shifted out is kept as the one
byte every command transaction has at least (R164, log 26). -/
def execOverrun (p : Port) (s : State) : Host.Outcome State Fault Refusal :=
  .next (s.discardFrame p 1)

/-! ### READ_TRANSACTION (R170) -/

/-- n bytes of a response from a read position on, then filler 00h. -/
def shiftedOut (frame : List Byte) (pos n : Nat) : List Byte :=
  let l := (frame.drop pos).take n
  l ++ List.replicate (n - l.length) 0x00#8

/-- READ_TRANSACTION (R170): `clocked` bytes after the C3h byte. -/
def execReadTransaction (p : Port) (clocked : Nat) (s : State) : Host.Outcome State Fault Refusal :=
  .next (
    let r := s.port p
    if s.resetHeld || r.prstHeld then s
    else match r.proto, r.unread with
      | .ready, some u =>
        let r1 := { r with lastOut := shiftedOut u.bytes u.pos clocked }
        if u.bytes.length ≤ u.pos + clocked then s.setPort p { r1 with proto := .idle, unread := none }
        else s.setPort p { r1 with unread := some { u with pos := 0 } }
      | _, _ => s.setPort p { r with lastOut := List.replicate clocked 0x00#8 })

/-! ### Resets -/

/-- RESET_PORT (R172): a port reset of the issuing port, then its response. -/
def execResetPort (p : Port) (s : State) : Host.Outcome State Fault Refusal :=
  .next (onPort p (frameLength (.resetPort p)) s fun t => (t.resetOnePort p).respond p Code.resetPort .ok [])

/-- PORT_RESET (R161, R172): the assertion of the port's PRST line. -/
def execPortReset (p : Port) (s : State) : Host.Outcome State Fault Refusal :=
  .next (
    let t := s.resetOnePort p
    t.setPort p { t.port p with prstHeld := true })

/-- PRST_RELEASE (R172). -/
def execPrstRelease (p : Port) (s : State) : Host.Outcome State Fault Refusal :=
  .next (s.setPort p { s.port p with prstHeld := false })

/-- DEVICE_RESET (R57 and the reset value of every other record): assertion of RESET. The queue and the levels of the PRST
lines are not the part's to reset (log 12); every slot is unspecified again (R1, log 2). -/
def execDeviceReset (s : State) : Host.Outcome State Fault Refusal :=
  .next { State.reset with
    pending := s.pending
    resetHeld := true
    resets := s.resets + 1
    ports := ⟨{ PortRec.reset with prstHeld := s.ports.a.prstHeld }, { PortRec.reset with prstHeld := s.ports.b.prstHeld }⟩ }

/-- RESET_RELEASE (R119): each judged level is the level the pin holds; taking it up is no edge. -/
def execResetRelease (levels : BitVec 4) (s : State) : Host.Outcome State Fault Refusal :=
  .next (if s.resetHeld then
      { s with resetHeld := false, judged := Vector.ofFn fun n => levels.getLsbD n.val }
    else s)

end Sys2Proof.Machine
end

