-- ==== Sys2Proof/Machine/TriggerCommands.lean ====
section
/-! DEFINITION. The trigger and sync-line commands and events (R119 to R122, R135, R136). -/

namespace Sys2Proof.Machine

/-! ### SET-SOURCE-EDGE (R121) -/

/-- An edge mode written: SHARED-CHANGED goes to the other port when the mode changes (R121). -/
def State.writeEdgeMode (s : State) (p : Port) (n : Fin 8) (m : EdgeMode) : State :=
  let s1 := { s with modes := s.modes.set n m }
  if m = s.modes.get n then s1 else s1.raiseTo p.other .device .sharedChanged (.source n)

/-- SET-SOURCE-EDGE (R121; payloads log 20). -/
def execSetSourceEdge (p : Port) (source : Byte) (mode : Option Byte) (s : State) :
    Host.Outcome State Fault Refusal :=
  .next (onPort p (frameLength (.setSourceEdge p source mode)) s fun t =>
    match edgeSourceOf source, optOf edgeModeOf mode with
    | some n, some none => t.respond p Code.setSourceEdge .ok [(t.modes.get n).code]
    | some n, some (some m) =>
      (t.writeEdgeMode p n m).respond p Code.setSourceEdge .ok [source, (t.modes.get n).code, m.code]
    | _, _ => t.respond p Code.setSourceEdge .badArgument [])

/-! ### FIRE (R122) -/

/-- The channels one of whose subscriptions, picked by `f`, names a source. -/
def State.subscribers (s : State) (f : StaticParams → Option Source) (src : Source) : Byte :=
  maskOf fun c => decide (f (s.chan c).stat = some src)

/-- FIRE (R122): one trigger event of the port's soft source. -/
def execFire (p : Port) (s : State) : Host.Outcome State Fault Refusal :=
  .next (onPort p (frameLength (.fire p)) s fun t =>
    (t.trigger (.soft p)).respond p Code.fire .ok
      [(Source.soft p).code, t.subscribers StaticParams.startSrc (.soft p), t.subscribers StaticParams.advSrc (.soft p),
        t.subscribers StaticParams.updSrc (.soft p)])

/-! ### SET-SYNC-DRIVER (R136) -/

/-- Giving a line this driver needs control of the new driver's channel and of the present one's (R136, R154). -/
def State.mayDrive (s : State) (p : Port) (l : Fin 4) (d : Option (ChanId × MkUnit)) : Bool :=
  (match d with
   | some (c, _) => s.controls p c
   | none => true)
    && (match s.drivers.get l with
        | some (c, _) => s.controls p c
        | none => true)

/-- A line given a driver; a change of its level is judged and delivered at this event (R135, R136). -/
def State.drive (s : State) (l : Fin 4) (d : Option (ChanId × MkUnit)) : State :=
  s.deliverLines { s with drivers := s.drivers.set l d }

/-- SET-SYNC-DRIVER (R136). R173 lists no type for a level: the line's is sent as a flag byte, 01h for high (payloads
log 20). -/
def execSetSyncDriver (p : Port) (line : Byte) (driver : Option DriverArg) (s : State) :
    Host.Outcome State Fault Refusal :=
  .next (onPort p (frameLength (.setSyncDriver p line driver)) s fun t =>
    match lineOf line with
    | none => t.respond p Code.setSyncDriver .badArgument []
    | some l =>
      match driver with
      | none =>
        t.respond p Code.setSyncDriver .ok (driverBytes (t.drivers.get l) ++ putFlag (t.lineLevel l))
      | some a =>
        match driverOf a with
        | none => t.respond p Code.setSyncDriver .badArgument []
        | some d =>
          if t.mayDrive p l d then
            let t1 := t.drive l d
            t1.respond p Code.setSyncDriver .ok
              (line :: (driverBytes (t.drivers.get l) ++ driverBytes d ++ putFlag (t1.lineLevel l)))
          else t.respond p Code.setSyncDriver .notController [])

/-! ### Edges (R119, R120, R135) -/

/-- TRG_EDGE (R120): a judged level change of a pin that counts under its edge mode. One that is no change, or does not
count, is not this event (log 4, log 10). -/
def execTrgEdge (n : Fin 4) (level : Bool) (s : State) : Host.Outcome State Fault Refusal :=
  .next (if !s.resetHeld && (s.modes.get (pinIndex n)).counts level then s.judgePin n level else s)

/-- JUDGED_LEVEL_CHANGE (R119): the pin's judged level changes, and the change is judged under its edge mode. -/
def execJudgedLevelChange (n : Fin 4) (level : Bool) (s : State) : Host.Outcome State Fault Refusal :=
  .next (if s.resetHeld then s else s.judgePin n level)

/-- SYNC_LINE_EDGE (R135): a trigger event of a line on its way from an output tick reaches the Trigger Matrix, after
every output tick at that edge of SCLK (log 5, log 7); it does nothing at the start subscription of the channel whose marker
made it (R137, log 38). -/
def execSyncLineEdge (l : Fin 4) (s : State) : Host.Outcome State Fault Refusal :=
  .next (match s.waitingEvent l with
    | some e => s.finishTicks.deliverEvent e
    | none => s)

end Sys2Proof.Machine
end

