-- ==== Sys2Proof/Machine/Dispatch.lean ====
section
/-! DEFINITION. The meaning of every command: one arm per constructor of Instr. -/

namespace Sys2Proof.Machine

def exec (i : Instr) (s : State) : Host.Outcome State Fault Refusal :=
  match i with
  | .identify p => Sys2Proof.Machine.execIdentify p s
  | .resetPort p => Sys2Proof.Machine.execResetPort p s
  | .queryStore p => Sys2Proof.Machine.execQueryStore p s
  | .openLoad p seg declared vis label => Sys2Proof.Machine.execOpenLoad p seg declared vis label s
  | .loadData p samples => Sys2Proof.Machine.execLoadData p samples s
  | .closeLoad p => Sys2Proof.Machine.execCloseLoad p s
  | .abortLoad p => Sys2Proof.Machine.execAbortLoad p s
  | .deleteSegment p seg => Sys2Proof.Machine.execDeleteSegment p seg s
  | .setVisibility p seg vis => Sys2Proof.Machine.execSetVisibility p seg vis s
  | .readSegment p seg offset count => Sys2Proof.Machine.execReadSegment p seg offset count s
  | .querySegment p seg => Sys2Proof.Machine.execQuerySegment p seg s
  | .putEntry p ch index entry => Sys2Proof.Machine.execPutEntry p ch index entry s
  | .trimList p ch newLength => Sys2Proof.Machine.execTrimList p ch newLength s
  | .queryEntry p ch index => Sys2Proof.Machine.execQueryEntry p ch index s
  | .queryList p ch => Sys2Proof.Machine.execQueryList p ch s
  | .claim p mask yieldable take => Sys2Proof.Machine.execClaim p mask yieldable take s
  | .release p mask => Sys2Proof.Machine.execRelease p mask s
  | .setStatic p ch args => Sys2Proof.Machine.execSetStatic p ch args s
  | .setLive p ch point args => Sys2Proof.Machine.execSetLive p ch point args s
  | .applyGroup p mask => Sys2Proof.Machine.execApplyGroup p mask s
  | .arm p ch => Sys2Proof.Machine.execArm p ch s
  | .disarm p ch => Sys2Proof.Machine.execDisarm p ch s
  | .start p mask => Sys2Proof.Machine.execStart p mask s
  | .stop p mask mode => Sys2Proof.Machine.execStop p mask mode s
  | .jump p ch target => Sys2Proof.Machine.execJump p ch target s
  | .clearFault p ch => Sys2Proof.Machine.execClearFault p ch s
  | .queryChannel p ch => Sys2Proof.Machine.execQueryChannel p ch s
  | .setSourceEdge p source mode => Sys2Proof.Machine.execSetSourceEdge p source mode s
  | .setMarker p ch unit args => Sys2Proof.Machine.execSetMarker p ch unit args s
  | .setSyncDriver p line driver => Sys2Proof.Machine.execSetSyncDriver p line driver s
  | .fire p => Sys2Proof.Machine.execFire p s
  | .setEventEnable p kinds => Sys2Proof.Machine.execSetEventEnable p kinds s
  | .takeEvents p => Sys2Proof.Machine.execTakeEvents p s
  | .badFrame p bytes => Sys2Proof.Machine.execBadFrame p bytes s
  | .overrun p => Sys2Proof.Machine.execOverrun p s
  | .readTransaction p clocked => Sys2Proof.Machine.execReadTransaction p clocked s
  | .deviceReset => Sys2Proof.Machine.execDeviceReset s
  | .resetRelease levels => Sys2Proof.Machine.execResetRelease levels s
  | .portReset p => Sys2Proof.Machine.execPortReset p s
  | .prstRelease p => Sys2Proof.Machine.execPrstRelease p s
  | .clockLost => Sys2Proof.Machine.execClockLost s
  | .runLengthReset => Sys2Proof.Machine.execRunLengthReset s
  | .clockRestored => Sys2Proof.Machine.execClockRestored s
  | .outputTick c => Sys2Proof.Machine.execOutputTick c s
  | .starved c => Sys2Proof.Machine.execStarved c s
  | .markerPulseEnd c u => Sys2Proof.Machine.execMarkerPulseEnd c u s
  | .trgEdge pin level => Sys2Proof.Machine.execTrgEdge pin level s
  | .syncLineEdge line => Sys2Proof.Machine.execSyncLineEdge line s
  | .fetchBurstComplete upsets => Sys2Proof.Machine.execFetchBurstComplete upsets s
  | .drainBurstComplete => Sys2Proof.Machine.execDrainBurstComplete s
  | .readbackBurstComplete upsets => Sys2Proof.Machine.execReadbackBurstComplete upsets s
  | .sclkRisingEdge => Sys2Proof.Machine.execSclkRisingEdge s
  | .judgedLevelChange pin level => Sys2Proof.Machine.execJudgedLevelChange pin level s

end Sys2Proof.Machine
end

