-- ==== Sys2Proof/Safety.lean ====
section
/-! DEFINITION. What counts as a safe step and a safe run, and the laws that the manual states of the part, as predicates on
its state. -/

namespace Sys2Proof.Machine

/-- A step is safe when it answers a next state. -/
def StepsOn (s : State) : Prop := ∃ t, step s = .next t

/-- A run of n steps is safe when none of them stops. -/
def RunsOn (n : Nat) (s : State) : Prop := ∃ t, Sys2Proof.core.run n s = .next t

/-! ### The store (01) -/

/-- All the slots of a burst lie within one page (R11). -/
def Burst.inPage (b : Burst) : Prop :=
  if b.ascending then b.first + b.count ≤ 256 else b.first < 256 ∧ b.count ≤ b.first + 1

/-- The memory is in canonical form, lists slots of the store only, and the burst in flight keeps within a page. -/
def State.MemoryLaw (s : State) : Prop :=
  s.mem.wf = true ∧ (∀ x ∈ s.mem, x.1 < 524288) ∧ ∀ b ∈ s.burst, b.inPage

/-- Every page list of the segment table, one after another. -/
def State.heldPages (s : State) : List PageNo := s.segs.toList.flatMap SegRec.pages

/-- Page conservation (R10), with R3 (a FREE page is not suspect, a RETIRED one is) and R17 (a FREE segment has no pages). -/
def State.PageLaw (s : State) : Prop :=
  (s.freeList ++ s.retired ++ s.heldPages).Nodup
    ∧ (∀ n ∈ s.freeList, s.page n = ⟨.free, false⟩)
    ∧ (∀ n ∈ s.retired, s.page n = ⟨.retired, true⟩)
    ∧ (∀ n ∈ s.heldPages, (s.page n).state = .held)
    ∧ (∀ n : PageNo, n ∈ s.freeList ++ s.retired ++ s.heldPages)
    ∧ ∀ i, (s.seg i).state = .free → (s.seg i).pages = []

/-! ### Segments and loads (02) -/

/-- Open-load law (R21): a segment is LOADING exactly when its owner's Load Unit holds it as its load segment; and a
readback under way reads a READY or DOOMED segment (R33, R37). -/
def State.LoadLaw (s : State) : Prop :=
  (∀ i, (s.seg i).state = .loading →
    ∃ p, (s.seg i).owner = some p ∧ (s.loadUnit p).seg = some i)
  ∧ (∀ p, match (s.loadUnit p).seg with
    | some i => (s.loadUnit p).phase ≠ .noLoad ∧ (s.seg i).state = .loading ∧ (s.seg i).owner = some p
    | none => (s.loadUnit p).phase = .noLoad)
  ∧ ∀ p, ∀ r ∈ (s.loadUnit p).readback, r.mark = .live → (s.seg r.seg).state = .ready ∨ (s.seg r.seg).state = .doomed

/-- How many entries of the eight lists name a segment (R46). -/
def State.namings (s : State) (i : SegId) : Nat :=
  (s.chans.toList.map fun ch => ch.list.countP fun e => decide (e.seg = i)).sum

/-- Entry law and reference-count law (R45, R46), with the counts that go with each segment state (R17). -/
def State.ReferenceLaw (s : State) : Prop :=
  ∀ i, (s.seg i).refs = s.namings i
    ∧ match (s.seg i).state with
      | .free | .loading => (s.seg i).refs = 0
      | .ready => True
      | .doomed => 0 < (s.seg i).refs

/-- Load-Unit counts (R20): outside a load all are 0; in OPEN the buffer holds what was received and not yet written, and no
more than the declared length is received; in ABORTING nothing past the received count is written. The oversize flag is
set with the declared length reached (R23). A write burst in flight is a load's, and its samples are in the buffer (R24). -/
def State.CountLaw (s : State) : Prop :=
  ∀ p, let u := s.loadUnit p
    (match u.phase with
     | .noLoad => u.received = 0 ∧ u.wpos = 0 ∧ u.buffer = [] ∧ u.oversize = false
     | .opened => u.wpos + u.buffer.length = u.received ∧ u.received ≤ s.declaredOf u
     | .aborting => u.wpos + u.buffer.length ≤ u.received ∧ u.received ≤ s.declaredOf u)
    ∧ u.received ≤ 65536 ∧ u.buffer.length ≤ 128
    ∧ (u.oversize = true → u.received = s.declaredOf u)
    ∧ ∀ b, s.drainInFlight p = some b → u.phase ≠ .noLoad ∧ 1 ≤ b.count ∧ b.count ≤ u.buffer.length

/-- Page-count law (R18), with the range of the two lengths (R17, R22). -/
def State.PageCountLaw (s : State) : Prop :=
  ∀ i, match (s.seg i).state with
    | .free => True
    | .loading => ∃ d, (s.seg i).declared = some d ∧ 16 ≤ d ∧ d ≤ 65536 ∧ (s.seg i).pages.length = (d + 255) / 256
    | .ready | .doomed =>
      ∃ l, (s.seg i).length = some l ∧ 16 ≤ l ∧ l ≤ 65536 ∧ (s.seg i).pages.length = (l + 255) / 256

/-! ### Channels (04 to 08) -/

/-- Which fields can be set in which channel state (R57, R65, R71, R73, R76, R88, R123, R125). -/
def Chan.CourseLaw (ch : Chan) : Prop :=
  (ch.fault.isSome ↔ ch.state = .halted)
    ∧ (match ch.state with
       | .stopping => ch.stop.isSome
       | .waiting => ch.stop ≠ some .atPass
       | .idle | .arming | .armed | .running | .halted => ch.stop = none)
    ∧ (ch.jump.isSome → ch.state = .running ∨ ch.state = .stopping)
    ∧ (ch.startPending = true → ch.state = .arming ∨ ch.state = .armed)
    ∧ (ch.startLatch = true → ch.startPending = true)
    ∧ (ch.startRequest = true → ch.state = .waiting)
    ∧ (ch.advLatch = true → ch.state.playing = true)
    ∧ (ch.updLatch = true → ch.state.playing = true)
    ∧ (ch.state = .waiting → ch.pos = 0 ∧ ch.pass = 0#16)
    ∧ (ch.state = .waiting → ch.advLatch = true → ch.startRequest = true)

/-- The pending record (R139): empty with neither point nor group request, or in play with a point. -/
def Chan.RecordLaw (ch : Chan) : Prop :=
  if ch.staged.isEmpty then ch.staged = .empty else ch.staged.point.isSome ∧ ch.state.playing = true

/-- A channel that is IDLE or HALTED has been flushed (R113). -/
def Chan.FlushedLaw (ch : Chan) : Prop :=
  ch.state = .idle ∨ ch.state = .halted →
    ch.fifo = [] ∧ ch.cursor = none ∧ ch.target = none ∧ ch.underrun = false ∧ ch.passStalled = false

/-- A burst in flight that is to be kept belongs to a channel that is ARMING, ARMED or in play (R113). -/
def State.KeptLaw (s : State) : Prop :=
  ∀ b ∈ s.burst, ∀ c, b.requester = .fetcher c → b.keep = true → (s.chan c).state.active = true

/-- Position law (R90), with the walk it rests on: the list of a channel that is ARMING, ARMED or in play has entries, their
next fields name entries of it (R60), and so do the current entry and a stored jump target (R74). -/
def State.WalkLaw (s : State) : Prop :=
  ∀ c, let ch := s.chan c
    ch.state.active = true →
      (∀ e ∈ ch.list, ∀ x, e.next = some x → x.val < ch.list.length)
        ∧ ch.entry.val < ch.list.length
        ∧ (∀ j, ch.jump = some j → j.val < ch.list.length)
        ∧ (ch.state.playing = true → ch.pos < lengthOf s.segs ch ch.entry * 65536)

/-- Underrun-count law (R109). -/
def Chan.UnderrunLaw (ch : Chan) : Prop :=
  if ch.state = .halted ∧ (ch.fault.map FaultRec.cause) = some .starved then ch.consec = 3 else ch.consec ≤ 2

/-- Lane-word law (R99): the lane word equals the output value plus 32768. -/
def Chan.LaneLaw (ch : Chan) : Prop := (ch.lane.toNat : Int) = ch.out.toInt + 32768

/-- A marker unit (R128, R131 to R133): in range; in mode OFF inactive; remaining is for pulses. -/
def Marker.Law (m : Marker) : Prop :=
  1 ≤ m.width ∧ m.width ≤ 65535 ∧ m.hyst ≤ 4095 ∧ m.remaining ≤ 65535 ∧ (m.mode = .off → m.active = false)
    ∧ (m.mode = .off ∨ m.mode = .level → m.remaining = 0)

/-- Both marker units, inactive outside play (R133). -/
def Chan.MarkerLaw (ch : Chan) : Prop :=
  ch.mk1.Law ∧ ch.mk2.Law
    ∧ (ch.state.playing = false →
        ch.mk1.active = false ∧ ch.mk1.remaining = 0 ∧ ch.mk2.active = false ∧ ch.mk2.remaining = 0)

/-- Ranges of parameters, counters and the list (R41, R83, R84, R138). -/
def Chan.RangeLaw (ch : Chan) : Prop :=
  1 ≤ ch.stat.divider ∧ ch.stat.divider ≤ 4096 ∧ 1 ≤ ch.live.step ∧ ch.live.step ≤ 1048576
    ∧ (∀ n ∈ ch.staged.step, 1 ≤ n ∧ n ≤ 1048576)
    ∧ ch.totalUnder ≤ 65535 ∧ ch.clipCount ≤ 65535 ∧ ch.list.length ≤ 64

/-- FIFO law (R102): at most 64 items, with what a kept burst in flight will bring. -/
def State.FifoLaw (s : State) : Prop :=
  ∀ c, (s.chan c).fifo.length ≤ 64
    ∧ ∀ b ∈ s.burst, b.requester = .fetcher c → b.keep = true → (s.chan c).fifo.length + b.count ≤ 64

/-- The places of the walk that channel c has fetched: those of its FIFO items, then those that its kept burst in flight
will bring (R101, R105). A place is an entry, a pass of it and a play-order index. -/
def State.fetchedPlaces (s : State) (c : ChanId) : List Cursor :=
  (s.chan c).fifo.map (fun it => ⟨it.entry, it.pass, it.index⟩)
    ++ match ownBurst c s.burst with
      | some b =>
        (match b.keep, b.tag with
         | true, some g => (List.range b.count).map fun n => ⟨g.entry, g.pass, g.index + n⟩
         | _, _ => [])
      | none => []

/-- An entry of the list has a pass of this number (R43). -/
def Chan.hasPass (ch : Chan) (j : EntryIx) (pass : Half) : Prop :=
  ∃ e, ch.entryAt j = some e ∧ (e.repeats = 0#16 ∨ pass.toNat < e.repeats.toNat)

/-- Place y is the first of the pass that the walk goes to after the pass of x (cases 2 to 4 of R103). -/
def Chan.WalksTo (ch : Chan) (x y : Cursor) : Prop :=
  ∃ e, ch.entryAt x.entry = some e ∧ y.index = 0
    ∧ if e.repeats = 0#16 ∨ x.pass.toNat + 1 < e.repeats.toNat then y.entry = x.entry ∧ y.pass = x.pass + 1#16
      else y.pass = 0#16 ∧ match successor ch.list x.entry with
        | some j => y.entry = j
        | none => ch.stat.endMode = .loop ∧ y.entry = 0

/-- Places in play order: each is the next index of the pass before it, or after a pass's last index the first place of the
pass that follows. After the first pass, the one in play, that is the stored jump target when there is one (R103, R110). -/
def Chan.PlayOrder (ch : Chan) (length : EntryIx → Nat) : Option EntryIx → List Cursor → Prop
  | jump, x :: y :: r =>
    if x.index + 1 < length x.entry then y = { x with index := x.index + 1 } ∧ ch.PlayOrder length jump (y :: r)
    else
      (match jump with
       | some j => y = ⟨j, 0#16, 0⟩
       | none => ch.WalksTo x y)
        ∧ ch.PlayOrder length none (y :: r)
  | _, _ => True

/-- FIFO law, the play order (R102), with what it rests on: the items of a channel that is ARMING, ARMED or in play, what its
burst in flight will bring, and its cursor are places of the list in play order, the first of them in the pass playback is in
(R101), and the last-of-pass mark is on the last index; before play that pass is pass 0 of entry 0 (R61). A pending target is
the stored jump target, with the cursor still in the pass in play; else a stored target stands behind that pass (R110). The
cursor has ended only where the walk has (R103); an IMMEDIATE stop has flushed the channel (R113). -/
def State.PlayOrderLaw (s : State) : Prop :=
  ∀ c, let ch := s.chan c
    let length := lengthOf s.segs ch
    let fetched := s.fetchedPlaces c
    let ahead := fetched ++ ch.cursor.toList
    ch.state.active = true →
      ch.PlayOrder length ch.jump ahead
        ∧ (∀ x ∈ ahead, ch.hasPass x.entry x.pass ∧ x.index < length x.entry)
        ∧ (∀ x, ahead.head? = some x → x.entry = ch.entry ∧ x.pass = ch.pass)
        ∧ ch.hasPass ch.entry ch.pass
        ∧ (ch.state.playing = false → ch.entry = 0 ∧ ch.pass = 0#16)
        ∧ (∀ it ∈ ch.fifo, it.last = decide (it.index + 1 = length it.entry))
        ∧ (∀ b g, ownBurst c s.burst = some b → b.keep = true → b.tag = some g → 1 ≤ b.count ∧ g.length = length g.entry)
        ∧ (∀ j, ch.target = some j → ch.jump = some j ∧ ∀ x ∈ fetched, x.index + 1 < length x.entry)
        ∧ if ch.stop = some .immediate then ahead = [] ∧ ch.target = none
          else
            (∀ j, ch.jump = some j →
              ch.target = some j ∨ ∃ l x y r, ahead = l ++ x :: y :: r ∧ x.index + 1 = length x.entry)
              ∧ (ch.cursor = none →
                  ∃ x e, fetched.getLast? = some x ∧ ch.entryAt x.entry = some e ∧ x.index + 1 = length x.entry
                    ∧ ¬ (e.repeats = 0#16 ∨ x.pass.toNat + 1 < e.repeats.toNat) ∧ successor ch.list x.entry = none
                    ∧ (ch.stat.endMode = .loop → ch.stop = some .atListEnd ∨ ch.stop = some .atPass))

/-! ### Ports and events (10, 11) -/

/-- An entry pairs a source with one of its kinds, and has the detail its kind calls for (R178). -/
def EventEntry.lawful (e : EventEntry) : Bool :=
  match e.source, e.kind, e.detail with
  | .device, .clockLost, .nothing | .device, .clockRestored, .nothing => true
  | .device, .segmentFreed, .segment _ => true
  | .device, .sharedChanged, .source _ => true
  | .chan _, k, .nothing => decide (k.code ≤ 10)
  | _, _, _ => false

/-- Event-set law (R178): at most one entry per source and kind, kept in the order of R181. -/
def PortRec.EventLaw (r : PortRec) : Prop :=
  r.events.Pairwise (fun e f => e.key < f.key) ∧ ∀ e ∈ r.events, e.lawful = true

/-- The port protocol (R165, R167): an unread response is present exactly in RESPONSE-READY, a readback exactly in
EXECUTING; none is left cancelled and unanswered, and one that waits for its burst has that burst in flight, to be
discarded (R37). -/
def State.ProtocolLaw (s : State) : Prop :=
  ∀ p, ((s.port p).unread.isSome ↔ (s.port p).proto = .ready)
    ∧ ((s.loadUnit p).readback.isSome ↔ (s.port p).proto = .executing)
    ∧ ∀ r ∈ (s.loadUnit p).readback, r.mark ≠ .cancelled
        ∧ (r.mark = .cancelledInFlight → ∃ b, s.loadBurst p = some b ∧ b.write = false ∧ b.keep = false)

/-! ### Clock and arbiter (04, 06) -/

/-- The monitor (R78) and the ticks (R79): no tick in LOST. -/
def State.ClockLaw (s : State) : Prop :=
  s.monitor.sinceEdge ≤ 250 ∧ s.monitor.runLength < 50000
    ∧ (s.monitor.clock = .lost → ∀ c, s.tickOf c = .noTick)
    ∧ (s.monitor.clock = .lost → ∀ c, (s.chan c).state.playing = false)

/-- Pass-over counts (R114). -/
def State.ArbiterLaw (s : State) : Prop := ∀ p, s.arb.passOver.get p ≤ 8

end Sys2Proof.Machine

/-! ### Vocabulary of the statements -/

namespace Sys2Proof.Machine

/-- The port takes a command frame released now: RESET and its PRST are released and it is not EXECUTING (R165, R168). -/
def State.Listening (s : State) (p : Port) : Prop :=
  s.resetHeld = false ∧ (s.port p).prstHeld = false ∧ (s.port p).proto ≠ .executing

/-- The port a frame's command is sent on; none for the rows no frame carries. -/
def framePort : Instr → Option Port
  | .identify p | .resetPort p | .queryStore p | .openLoad p _ _ _ _ | .loadData p _ | .closeLoad p | .abortLoad p
  | .deleteSegment p _ | .setVisibility p _ _ | .readSegment p _ _ _ | .querySegment p _ | .putEntry p _ _ _
  | .trimList p _ _ | .queryEntry p _ _ | .queryList p _ | .claim p _ _ _ | .release p _ | .setStatic p _ _
  | .setLive p _ _ _ | .applyGroup p _ | .arm p _ | .disarm p _ | .start p _ | .stop p _ _ | .jump p _ _
  | .clearFault p _ | .queryChannel p _ | .setSourceEdge p _ _ | .setMarker p _ _ _ | .setSyncDriver p _ _
  | .fire p | .setEventEnable p _ | .takeEvents p => some p
  | .badFrame _ _ | .overrun _ | .readTransaction _ _ | .deviceReset | .resetRelease _ | .portReset _
  | .prstRelease _ | .clockLost | .runLengthReset | .clockRestored | .outputTick _ | .starved _
  | .markerPulseEnd _ _ | .trgEdge _ _ | .syncLineEdge _ | .fetchBurstComplete _ | .drainBurstComplete
  | .readbackBurstComplete _ | .sclkRisingEdge | .judgedLevelChange _ _ => none

/-- The state in which a command of a frame acts: its bytes have been clocked, and data output has shifted out 00h for every
one of them (R164, log 26). For the rows no frame carries it is the state itself. -/
def State.took (s : State) (i : Instr) : State :=
  match framePort i with
  | some p => s.clockOut p (frameLength i)
  | none => s

/-- Port p, as it stood in s, has in t the response given, formed at this event (R167, R169, R171): RESPONSE-READY, its
flags copied from the port's two flags (RESPONSE-LOST also when a response was discarded) and from the event set of t,
and both port flags cleared. -/
def Answered (s t : State) (p : Port) (echo : Byte) (st : Status) (payload : List Byte) : Prop :=
  (t.port p).proto = .ready
    ∧ (t.port p).unread = some ⟨echo, st,
        flagsByte (s.port p).overrun ((s.port p).lost || decide ((s.port p).proto = .ready)) (!(t.port p).events.isEmpty),
        payload, 0⟩
    ∧ (t.port p).overrun = false ∧ (t.port p).lost = false

/-- The rest of a port's record: enable set, PRST line, data output. -/
def SameLine (s t : State) (p : Port) : Prop :=
  (t.port p).enable = (s.port p).enable ∧ (t.port p).prstHeld = (s.port p).prstHeld
    ∧ (t.port p).lastOut = (s.port p).lastOut

/-- Of the ports, only port p changed, and its event set, enable set, PRST line and data output did not. -/
def OnlyAnswer (s t : State) (p : Port) : Prop :=
  SameLine s t p ∧ (t.port p).events = (s.port p).events ∧ t.port p.other = s.port p.other

/-- The command was answered and did nothing else at all. -/
def OnlyAnswered (s t : State) (p : Port) (echo : Byte) (st : Status) (payload : List Byte) : Prop :=
  Answered s t p echo st payload ∧ OnlyAnswer s t p ∧ { t with ports := s.ports } = s

/-- Every channel but c is as it was. -/
def OtherChans (s t : State) (c : ChanId) : Prop := ∀ d, d ≠ c → t.chan d = s.chan d

/-- Every segment but i is as it was. -/
def OtherSegs (s t : State) (i : SegId) : Prop := ∀ j, j ≠ i → t.seg j = s.seg j

end Sys2Proof.Machine
end

