-- ==== Sys2Proof/WellFormed.lean ====
section
/-! DEFINITION. Which commands can reach the part at all: what the constructor types of `Instr` do not already say.
The meanings are total and do not ask for these; the statements about frames do. -/

namespace Sys2Proof

/-- The store has 2048 pages of 256 slots (R1). -/
def storeSlots : Nat := 524288

/-- A disturbance concerns a slot of the store and inverts at least one of its bits. -/
def Upset.wf (u : Upset) : Bool := decide (u.addr < storeSlots) && decide (u.mask ≠ ⟨0#16, false⟩)

/-- A command transaction with these whole bytes is refused by R166: it has a first byte, that byte is not the C3h of a
read transaction (R164), and one of the seven checks fails. -/
def badFrameWf (p : Port) (bytes : List Byte) : Bool :=
  match bytes with
  | [] => false
  | b :: _ => decide (b ≠ readByte) && (match decodeFrame p bytes with | .ok _ => false | .error _ => true)

/-- Well-formed commands: a payload has at most 300 bytes (R166), so a LOAD-DATA frame carries at most 150 samples. -/
def Instr.wf : Instr → Bool
  | .loadData _ samples => decide (samples.length ≤ 150)
  | .badFrame p bytes => badFrameWf p bytes
  | .fetchBurstComplete us => us.all Upset.wf
  | .readbackBurstComplete us => us.all Upset.wf
  | .identify _ | .resetPort _ | .queryStore _ | .openLoad _ _ _ _ _ | .closeLoad _ | .abortLoad _
  | .deleteSegment _ _ | .setVisibility _ _ _ | .readSegment _ _ _ _ | .querySegment _ _ | .putEntry _ _ _ _
  | .trimList _ _ _ | .queryEntry _ _ _ | .queryList _ _ | .claim _ _ _ _ | .release _ _ | .setStatic _ _ _
  | .setLive _ _ _ _ | .applyGroup _ _ | .arm _ _ | .disarm _ _ | .start _ _ | .stop _ _ _ | .jump _ _ _
  | .clearFault _ _ | .queryChannel _ _ | .setSourceEdge _ _ _ | .setMarker _ _ _ _ | .setSyncDriver _ _ _
  | .fire _ | .setEventEnable _ _ | .takeEvents _ | .overrun _ | .readTransaction _ _ | .deviceReset
  | .resetRelease _ | .portReset _ | .prstRelease _ | .clockLost | .runLengthReset | .clockRestored
  | .outputTick _ | .starved _ | .markerPulseEnd _ _ | .trgEdge _ _ | .syncLineEdge _ | .drainBurstComplete
  | .sclkRisingEdge | .judgedLevelChange _ _ => true

end Sys2Proof
end

