-- ==== Sys2Proof/Certificates/Slice0/Obligations.lean ====
section
/-! DEFINITION. The statements about the model. A `…Rule` says what its rule of spec/ says of the state before (s), the state
after (t) and the response; the obligations follow each group. -/

namespace Sys2Proof.Machine

/-! ## Codes and layouts: the tables of chapter 10, written out -/

namespace Table

/-! ### Enumerations (R173) -/

def segState : SegState → Byte
  | .free => 0#8
  | .loading => 1#8
  | .ready => 2#8
  | .doomed => 3#8

def visibility : Visibility → Byte
  | .ownerOnly => 0#8
  | .shared => 1#8

def direction : Direction → Byte
  | .forward => 0#8
  | .reverse => 1#8
  | .pingpong => 2#8

def chanState : ChanState → Byte
  | .idle => 0#8
  | .arming => 1#8
  | .armed => 2#8
  | .running => 3#8
  | .waiting => 4#8
  | .stopping => 5#8
  | .halted => 6#8

def stop : StopPoint → Byte
  | .immediate => 0#8
  | .atPass => 1#8
  | .atListEnd => 2#8

def cause : FaultCause → Byte
  | .starved => 0#8
  | .clockLost => 1#8

/-- NONE and LINEAR. -/
def interp : Interp → Byte
  | .hold => 0#8
  | .linear => 1#8

def combine : Combine → Byte
  | .alone => 0#8
  | .addPartner => 1#8

def endMode : EndMode → Byte
  | .stop => 0#8
  | .loop => 1#8

def point : ApplyPoint → Byte
  | .now => 0#8
  | .pass => 1#8
  | .entry => 2#8
  | .trigger => 3#8

/-- TRG0 to TRG3, SYN0 to SYN3, SOFT-A and SOFT-B. -/
def source : Source → Byte
  | .trg n => BitVec.ofNat 8 n.val
  | .syn n => BitVec.ofNat 8 (4 + n.val)
  | .soft .a => 8#8
  | .soft .b => 9#8

/-- FFh for a subscription to nothing. -/
def subscription : Option Source → Byte
  | none => 0xFF#8
  | some x => source x

def edgeMode : EdgeMode → Byte
  | .off => 0#8
  | .rising => 1#8
  | .falling => 2#8
  | .both => 3#8

def unit : MkUnit → Byte
  | .mk1 => 0#8
  | .mk2 => 1#8

def markerMode : MarkerMode → Byte
  | .off => 0#8
  | .entry => 1#8
  | .pass => 2#8
  | .level => 3#8

def polarity : Polarity → Byte
  | .normal => 0#8
  | .inverted => 1#8

def controller : Option Port → Byte
  | none => 0#8
  | some .a => 1#8
  | some .b => 2#8

/-- An optional enumeration operand: absent, the old value stays; present, the new value is the one of that code. -/
def Given {α : Type} (code : α → Byte) (o : Option Byte) (old new : α) : Prop :=
  match o with
  | none => new = old
  | some b => code new = b

/-- The channels of a mask in ascending order: bit c names channel c. -/
def channels (mask : Byte) : List ChanId := (List.finRange 8).filter fun c => mask.getLsbD c.val

/-! ### Status and kind codes (10.6, R176) -/

def status : Status → Byte
  | .ok => 0x00#8
  | .clamped => 0x01#8
  | .short => 0x02#8
  | .tooShort => 0x03#8
  | .oversize => 0x04#8
  | .applyMoved => 0x05#8
  | .dataSuspect => 0x06#8
  | .busy => 0x10#8
  | .badFrame => 0x11#8
  | .unknownCommand => 0x12#8
  | .badArgument => 0x13#8
  | .badIndex => 0x14#8
  | .notController => 0x15#8
  | .claimedElsewhere => 0x16#8
  | .notOwner => 0x17#8
  | .notVisible => 0x18#8
  | .channelState => 0x19#8
  | .channelActive => 0x1A#8
  | .segmentState => 0x1B#8
  | .noSpace => 0x1C#8
  | .noLoad => 0x1D#8
  | .loadOpen => 0x1E#8
  | .listFull => 0x1F#8
  | .emptyList => 0x20#8
  | .noSource => 0x21#8
  | .partnerRate => 0x22#8
  | .partnerBound => 0x23#8
  | .stopPending => 0x24#8
  | .noClock => 0x25#8

def kind : Kind → Nat
  | .armed => 0
  | .started => 1
  | .stopped => 2
  | .listDone => 3
  | .fault => 4
  | .underrun => 5
  | .triggerOverrun => 6
  | .clip => 7
  | .parity => 8
  | .applied => 9
  | .claimLost => 10
  | .clockLost => 11
  | .clockRestored => 12
  | .segmentFreed => 13
  | .sharedChanged => 14

/-- CH0 to CH7 0 to 7, DEVICE 8. -/
def eventSource : EventSource → Nat
  | .chan c => c.val
  | .device => 8

/-- R176: an event entry. -/
def event (e : EventEntry) : List Byte :=
  [BitVec.ofNat 8 (eventSource e.source), BitVec.ofNat 8 (kind e.kind + if e.multiple then 128 else 0),
    match e.detail with
    | .nothing => 0#8
    | .segment i => BitVec.ofNat 8 i.val
    | .source n => BitVec.ofNat 8 n.val]

/-! ### Records in payloads -/

/-- R174: the flags byte of an entry record. -/
def entryFlags (wait leave mk1 mk2 : Bool) : Byte :=
  BitVec.ofNat 8 (wait.toNat + 2 * leave.toNat + 4 * mk1.toNat + 8 * mk2.toNat)

/-- R174: an entry of a list. -/
def entry (e : Entry) : List Byte :=
  byteOfNat e.seg.val :: putHalf e.repeats
    ++ [direction e.dir, entryFlags e.wait e.leave e.mk1 e.mk2, (e.next.map fun x => byteOfNat x.val).getD 0xFF#8]

/-- R83: every static parameter. -/
def static (n : StaticParams) : List Byte :=
  putWord n.divider ++ [interp n.interp] ++ [combine n.combine] ++ [endMode n.endMode] ++ putHalf n.idle
    ++ putHalf n.park ++ [byteOfNat n.prio.val] ++ [subscription n.startSrc] ++ [subscription n.advSrc] ++ [subscription n.updSrc]

/-- R76: a fault record. -/
def fault (f : FaultRec) : List Byte :=
  [cause f.cause] ++ [byteOfNat f.entry.val] ++ putHalf f.pass ++ putWord f.index ++ [chanState f.before]

/-- R173: a driver of a sync line; NONE is channel FFh, its unit byte the model's 00h (log 20). -/
def driver : Option (ChanId × MkUnit) → List Byte
  | none => [0xFF#8, 0#8]
  | some (c, u) => [byteOfNat c.val, unit u]

/-! ### Command frames (10.4, 10.6) -/

/-- The code and the payload of a command, its fields in the order its rule names them. -/
def command : Instr → Option (Byte × List Byte)
  | .identify _ => some (0x01#8, [])
  | .resetPort _ => some (0x02#8, [])
  | .queryStore _ => some (0x03#8, [])
  | .openLoad _ seg declared vis label => some (0x10#8, [seg] ++ putLong declared ++ [vis] ++ putOpt putHalf label)
  | .loadData _ samples => some (0x11#8, samples.flatMap putHalf)
  | .closeLoad _ => some (0x12#8, [])
  | .abortLoad _ => some (0x13#8, [])
  | .deleteSegment _ seg => some (0x14#8, [seg])
  | .setVisibility _ seg vis => some (0x15#8, [seg, vis])
  | .readSegment _ seg offset count => some (0x16#8, [seg] ++ putHalf offset ++ [count])
  | .querySegment _ seg => some (0x17#8, [seg])
  | .putEntry _ ch index e =>
    some (0x20#8, [ch, index] ++ [e.segment] ++ putHalf e.repeats
      ++ [e.direction, entryFlags e.wait e.leave e.mk1 e.mk2, e.next])
  | .trimList _ ch newLength => some (0x21#8, [ch, newLength])
  | .queryEntry _ ch index => some (0x22#8, [ch, index])
  | .queryList _ ch => some (0x23#8, [ch])
  | .claim _ mask yieldable take => some (0x28#8, [mask] ++ putFlag yieldable ++ putFlag take)
  | .release _ mask => some (0x29#8, [mask])
  | .setStatic _ ch a =>
    some (0x30#8, [ch] ++ putOpt putHalf a.divider ++ putOpt putByte a.interp ++ putOpt putByte a.combine
      ++ putOpt putByte a.endMode ++ putOpt putHalf a.idle ++ putOpt putHalf a.park ++ putOpt putByte a.prio
      ++ putOpt putByte a.startSrc ++ putOpt putByte a.advSrc ++ putOpt putByte a.updSrc)
  | .setLive _ ch point a =>
    some (0x31#8, [ch] ++ putOpt putByte point ++ putOpt putLong a.gain ++ putOpt putLong a.offset
      ++ putOpt putLong a.step ++ putOpt putLong a.th1 ++ putOpt putLong a.th2)
  | .applyGroup _ mask => some (0x32#8, [mask])
  | .arm _ ch => some (0x33#8, [ch])
  | .disarm _ ch => some (0x34#8, [ch])
  | .start _ mask => some (0x35#8, [mask])
  | .stop _ mask mode => some (0x36#8, [mask, mode])
  | .jump _ ch target => some (0x37#8, [ch, target])
  | .clearFault _ ch => some (0x38#8, [ch])
  | .queryChannel _ ch => some (0x39#8, [ch])
  | .setSourceEdge _ source mode => some (0x40#8, [source] ++ putOpt putByte mode)
  | .setMarker _ ch unit a =>
    some (0x41#8, [ch, unit] ++ putOpt putByte a.mode ++ putOpt putHalf a.width ++ putOpt putByte a.polarity
      ++ putOpt putHalf a.hyst)
  | .setSyncDriver _ line d => some (0x42#8, [line] ++ putOpt (fun x : DriverArg => [x.channel, x.unit]) d)
  | .fire _ => some (0x43#8, [])
  | .setEventEnable _ kinds => some (0x48#8, putWord kinds.toNat)
  | .takeEvents _ => some (0x49#8, [])
  | _ => none

/-- A field of a command payload: n bytes that may hold anything, a flag byte, or an optional field of n bytes. -/
inductive Field where
  | raw (n : Nat)
  | flag
  | opt (n : Nat)
  deriving DecidableEq, Repr

/-- The fields of each command code of 10.6; the samples of LOAD-DATA (11h) are dealt with in `RightShape`. -/
def fields : Nat → Option (List Field)
  | 0x01 | 0x02 | 0x03 | 0x11 | 0x12 | 0x13 | 0x43 | 0x49 => some []
  | 0x14 | 0x17 | 0x23 | 0x29 | 0x32 | 0x33 | 0x34 | 0x35 | 0x38 | 0x39 => some [.raw 1]
  | 0x15 | 0x21 | 0x22 | 0x36 | 0x37 | 0x48 => some [.raw 2]
  | 0x16 => some [.raw 4]
  | 0x20 => some [.raw 8]
  | 0x10 => some [.raw 6, .opt 2]
  | 0x28 => some [.raw 1, .flag, .flag]
  | 0x30 => some [.raw 1, .opt 2, .opt 1, .opt 1, .opt 1, .opt 2, .opt 2, .opt 1, .opt 1, .opt 1, .opt 1]
  | 0x31 => some [.raw 1, .opt 1, .opt 4, .opt 4, .opt 4, .opt 4, .opt 4]
  | 0x40 => some [.raw 1, .opt 1]
  | 0x41 => some [.raw 2, .opt 1, .opt 2, .opt 1, .opt 2]
  | 0x42 => some [.raw 1, .opt 2]
  | _ => none

/-- The fields take up all of a payload, each presence byte and flag byte being 00h or 01h. -/
def Fits : List Field → List Byte → Prop
  | [], l => l = []
  | .raw n :: r, l => n ≤ l.length ∧ Fits r (l.drop n)
  | .flag :: r, l => ∃ b x, l = b :: x ∧ (b = 0#8 ∨ b = 1#8) ∧ Fits r x
  | .opt n :: r, l => ∃ b x, l = b :: x ∧ (b = 0#8 ∧ Fits r x ∨ b = 1#8 ∧ n ≤ x.length ∧ Fits r (x.drop n))

/-- R173: the payload of a command has the shape its fields call for: LOAD-DATA an even length, the unused bits of the
entry flags and of the enable word 0. -/
def RightShape (code : Byte) (payload : List Byte) : Prop :=
  if code = 0x11#8 then payload.length % 2 = 0
  else (∃ l, fields code.toNat = some l ∧ Fits l payload)
    ∧ (code = 0x20#8 → (payload.getD 6 0#8).toNat < 16) ∧ (code = 0x48#8 → (payload.getD 0 0#8).toNat < 128)

end Table

/-! ## The command link and the resets -/

/-- R166: the seven checks in their order on the whole bytes of a command transaction; a frame that passes them is the
one that its command is written as. -/
def FrameRule (p : Port) (bytes : List Byte) : Prop :=
  let code := bytes.getD 1 0#8
  let n := 256 * (bytes.getD 2 0#8).toNat + (bytes.getD 3 0#8).toNat
  let payload := (bytes.drop 4).take n
  if bytes.head? ≠ some 0xA5#8 then decodeFrame p bytes = .error .badFrame
  else if bytes.length < 6 then decodeFrame p bytes = .error .badFrame
  else if 300 < n then decodeFrame p bytes = .error .badFrame
  else if bytes.length ≠ 6 + n then decodeFrame p bytes = .error .badFrame
  else if bytes.drop (4 + n) ≠ putHalf (crc16 ((bytes.drop 1).take (3 + n))) then decodeFrame p bytes = .error .badFrame
  else if Table.fields code.toNat = none then decodeFrame p bytes = .error .unknownCommand
  else
    (¬ Table.RightShape code payload → decodeFrame p bytes = .error .badShape)
      ∧ (Table.RightShape code payload → ∃ i, decodeFrame p bytes = .ok i ∧ framePort i = some p
          ∧ Table.command i = some (code, payload) ∧ encodeFrame i = some bytes)

/-- R166: the remainder is formed bit by bit, most significant bit first, with polynomial 1021h, from FFFFh. -/
def CrcRule (l : List Byte) : Prop :=
  crc16 l = (l.flatMap fun b => [7, 6, 5, 4, 3, 2, 1, 0].map fun i => b.getLsbD i).foldl
    (fun (r : Half) bit => if r.getLsbD 15 = bit then r <<< 1 else (r <<< 1) ^^^ 0x1021#16) 0xFFFF#16

/-- R173: how fields are written as bytes. -/
def FieldRule : Prop :=
  (∀ b : Byte, putByte b = [b]) ∧ (∀ n, byteOfNat n = BitVec.ofNat 8 n)
    ∧ (∀ b : Bool, putFlag b = [if b then 1#8 else 0#8])
    ∧ (∀ w : Half, putHalf w = [BitVec.ofNat 8 (w.toNat / 256), BitVec.ofNat 8 w.toNat])
    ∧ (∀ n, putWord n = [BitVec.ofNat 8 (n / 256), BitVec.ofNat 8 n])
    ∧ (∀ w : Long, putLong w = [BitVec.ofNat 8 (w.toNat / 16777216), BitVec.ofNat 8 (w.toNat / 65536),
        BitVec.ofNat 8 (w.toNat / 256), BitVec.ofNat 8 w.toNat])
    ∧ (∀ n, putLongNat n = [BitVec.ofNat 8 (n / 16777216), BitVec.ofNat 8 (n / 65536), BitVec.ofNat 8 (n / 256),
        BitVec.ofNat 8 n])
    ∧ (∀ l, putSamples l = l.flatMap putHalf)
    ∧ ∀ (α : Type) (f : α → List Byte), putOpt f none = [0#8] ∧ ∀ x, putOpt f (some x) = 1#8 :: f x

/-- 10.4, R171: the bytes of a response frame. -/
def ResponseRule (r : Response) : Prop :=
  let body := [r.echo, Table.status r.status, r.flags] ++ putWord r.payload.length ++ r.payload
  r.bytes = [0x5A#8] ++ body ++ putHalf (crc16 body)

/-- R166 in EXECUTING, R168: the release of a command transaction of n bytes sets OVERRUN and does nothing else; while it was
clocked data output shifted out 00h (R164, log 26). -/
def DiscardedRule (s t : State) (p : Port) (n : Nat) : Prop :=
  t = s.setPort p { s.port p with overrun := true, lastOut := List.replicate n 0x00#8 }

/-- R170. The bytes shifted out are the model's own record of the data output pin (log 26). -/
def ReadRule (s t : State) (p : Port) (clocked : Nat) : Prop :=
  { t with ports := s.ports } = s ∧ t.port p.other = s.port p.other
    ∧ (t.port p).events = (s.port p).events ∧ (t.port p).enable = (s.port p).enable
    ∧ (t.port p).overrun = (s.port p).overrun ∧ (t.port p).lost = (s.port p).lost
    ∧ (t.port p).prstHeld = (s.port p).prstHeld
    ∧ (t.port p).lastOut.length = clocked
    ∧ match (s.port p).unread with
      | some u =>
        (∀ k, k < clocked → (t.port p).lastOut[k]? = some ((u.bytes[u.pos + k]?).getD 0x00#8))
        ∧ (if u.bytes.length ≤ u.pos + clocked then (t.port p).proto = .idle ∧ (t.port p).unread = none
           else (t.port p).proto = .ready ∧ (t.port p).unread = some { u with pos := 0 })
      | none =>
        (t.port p).lastOut = List.replicate clocked 0x00#8
          ∧ (t.port p).proto = (s.port p).proto ∧ (t.port p).unread = none

/-- R57 and the reset values of every other rule, at the assertion of RESET. -/
def DeviceResetRule (s t : State) : Prop :=
  t.pending = s.pending ∧ t.resetHeld = true ∧ t.burst = none
    ∧ (∀ n, t.page n = ⟨.free, false⟩) ∧ t.freeList = List.finRange 2048 ∧ t.retired = []
    ∧ (∀ i, t.seg i = SegRec.freed) ∧ (∀ p, t.loadUnit p = LoadUnit.empty)
    ∧ (∀ c, t.chan c = Chan.reset) ∧ (∀ c, t.claimOf c = ⟨none, false⟩)
    ∧ t.monitor.clock = .lost ∧ t.monitor.runLength = 0 ∧ t.monitor.align = 0 ∧ (∀ c, t.tickOf c = .noTick)
    ∧ (∀ k, t.arb.rot.get k = 0) ∧ (∀ p, t.arb.passOver.get p = 0) ∧ t.arb.lastServed = .b
    ∧ (∀ n, t.modes.get n = .off) ∧ t.syncEvents = [] ∧ (∀ l, t.drivers.get l = none) ∧ (∀ l, t.lineLevel l = false)
    ∧ (∀ p, (t.port p).proto = .idle ∧ (t.port p).unread = none ∧ (t.port p).overrun = false
        ∧ (t.port p).lost = false ∧ (t.port p).events = [] ∧ (t.port p).enable = 0#15
        ∧ (t.port p).prstHeld = (s.port p).prstHeld ∧ attn t.resetHeld (t.port p) = false
        ∧ rdy t.resetHeld (t.port p) = false)

/-- R7: pages given back one at a time, in order; the suspect ones are retired. -/
def PagesBackRule (s t : State) (l : List PageNo) : Prop :=
  t.freeList = s.freeList ++ l.filter (fun n => !(s.page n).suspect)
    ∧ t.retired = s.retired ++ l.filter (fun n => (s.page n).suspect)
    ∧ (∀ n, t.page n =
        if n ∈ l then (if (s.page n).suspect then ⟨.retired, true⟩ else ⟨.free, false⟩) else s.page n)
    ∧ { t with freeList := s.freeList, retired := s.retired, pages := s.pages } = s

/-- R29, R27: what a port reset of p does to the Load Unit: its readback is abandoned, the items of a read burst of its own
are to be discarded, and an open load is aborted, at once or when its write burst in flight completes. -/
def ResetLoadRule (s t : State) (p : Port) : Prop :=
  let u := s.loadUnit p
  (t.loadUnit p =
      match u.phase, s.drainInFlight p with
      | .opened, none => ⟨.noLoad, none, 0, 0, [], false, none⟩
      | .opened, some b => { u with phase := .aborting, buffer := u.buffer.take b.count, readback := none }
      | .noLoad, _ | .aborting, _ => { u with readback := none })
    ∧ t.burst = (s.burst.map fun b =>
        if b.requester = .loadUnit p ∧ b.write = false then { b with keep := false } else b)
    ∧ match u.phase, s.drainInFlight p, u.seg with
      | .opened, none, some i =>
        t.seg i = SegRec.freed ∧ OtherSegs s t i
          ∧ PagesBackRule s { s with freeList := t.freeList, retired := t.retired, pages := t.pages } (s.seg i).pages
      | _, _, _ => t.segs = s.segs ∧ t.freeList = s.freeList ∧ t.retired = s.retired ∧ t.pages = s.pages

/-- R161, R162: what a port reset of p does, and what it leaves as it is; what becomes of the port's protocol record is said
beside it. -/
def PortResetRule (s t : State) (p : Port) : Prop :=
  (∀ c, t.claimOf c = if (s.claimOf c).controller = some p then ⟨none, false⟩ else s.claimOf c)
    ∧ ResetLoadRule s t p ∧ t.loadUnit p.other = s.loadUnit p.other
    ∧ t.arb.passOver.get p = 0 ∧ t.arb.passOver.get p.other = s.arb.passOver.get p.other
    ∧ t.arb.rot = s.arb.rot ∧ t.arb.lastServed = s.arb.lastServed
    ∧ t.port p.other = s.port p.other
    ∧ { t with
          claims := s.claims, loads := s.loads, burst := s.burst, segs := s.segs, freeList := s.freeList,
          retired := s.retired, pages := s.pages, arb := s.arb, ports := s.ports } = s

/-! ## Store, segments, loads -/

/-- R16: n is the number of pages at the head of the free list l whose page numbers rise by one. -/
def HeadRunRule (l : List PageNo) (n : Nat) : Prop :=
  n ≤ l.length ∧ (l ≠ [] → 1 ≤ n)
    ∧ (∀ k x y, k + 1 < n → l[k]? = some x → l[k + 1]? = some y → y.val = x.val + 1)
    ∧ ∀ k x y, k + 1 = n → l[k]? = some x → l[k + 1]? = some y → y.val ≠ x.val + 1

/-- R39: the report of segment i (log 15). -/
def SegmentReportRule (s : State) (i : SegId) (payload : List Byte) : Prop :=
  let r := s.seg i
  let load := match r.state, r.owner with
    | .loading, some q =>
      let u := s.loadUnit q
      (match u.phase with
       | .noLoad => 0#8
       | .opened => 1#8
       | .aborting => 2#8) :: (putLongNat u.received ++ putLongNat u.wpos ++ putFlag u.oversize)
    | _, _ => []
  payload = [byteOfNat i.val]
    ++ [match r.state with
        | .free => 0#8
        | .loading => 1#8
        | .ready => 2#8
        | .doomed => 3#8]
    ++ putOpt putByte (r.owner.map fun q => if q = .a then 1#8 else 2#8)
    ++ putOpt putByte (r.vis.map fun v => if v = .ownerOnly then 0#8 else 1#8)
    ++ putOpt putLongNat r.declared ++ putOpt putLongNat r.length ++ putWord r.pages.length ++ putWord r.refs
    ++ putFlag r.damaged ++ putOpt putHalf r.label ++ load

/-- The lowest index of an entry with a property, if there is one. -/
def LowestRule (l : List Entry) (f : Entry → Prop) : Option Nat → Prop
  | none => ∀ e ∈ l, ¬ f e
  | some j => (∃ e, l[j]? = some e ∧ f e) ∧ ∀ i e, i < j → l[i]? = some e → ¬ f e

/-- R56: the report of a channel's list (log 16). -/
def ListReportRule (s : State) (c : ChanId) (payload : List Byte) : Prop :=
  let l := (s.chan c).list
  let n := byteOfNat l.length
  ∃ unresolved doomed,
    LowestRule l (fun e => ∃ x, e.next = some x ∧ l.length ≤ x.val) unresolved
      ∧ LowestRule l (fun e => (s.seg e.seg).state = .doomed) doomed
      ∧ payload = [byteOfNat c.val, n] ++ (n :: l.map fun e => byteOfNat e.seg.val)
          ++ (n :: l.flatMap fun e => putOpt putByte (e.next.map fun x => byteOfNat x.val))
          ++ putOpt putByte (unresolved.map byteOfNat) ++ putOpt putByte (doomed.map byteOfNat)

/-- R182: the snapshot of channel c, its fields in order (log 18). A non-empty record has an apply point (R139); the byte of
one without is the model's (log 28). -/
def ChannelReportRule (s : State) (c : ChanId) (payload : List Byte) : Prop :=
  let k := s.chan c
  payload = [byteOfNat c.val]
    ++ [match k.state with
        | .idle => 0#8
        | .arming => 1#8
        | .armed => 2#8
        | .running => 3#8
        | .waiting => 4#8
        | .stopping => 5#8
        | .halted => 6#8]
    ++ [match (s.claimOf c).controller with
        | none => 0#8
        | some .a => 1#8
        | some .b => 2#8]
    ++ putFlag (s.claimOf c).yieldable
    ++ [byteOfNat k.entry.val] ++ putHalf k.pass ++ putLongNat k.pos ++ [byteOfNat k.fifo.length]
    ++ putWord k.consec ++ putWord k.totalUnder ++ putWord k.clipCount ++ putHalf k.pass
    ++ putHalf k.live.gain ++ putHalf k.live.offset ++ putLongNat k.live.step ++ putHalf k.live.th1 ++ putHalf k.live.th2
    ++ (if k.staged.isEmpty = true then [0#8]
        else [1#8] ++ putOpt putHalf k.staged.gain ++ putOpt putHalf k.staged.offset ++ putOpt putLongNat k.staged.step
          ++ putOpt putHalf k.staged.th1 ++ putOpt putHalf k.staged.th2
          ++ [match k.staged.point with
              | none | some .now => 0#8
              | some .pass => 1#8
              | some .entry => 2#8
              | some .trigger => 3#8]
          ++ putFlag k.staged.group)
    ++ (match k.fault with
        | none => [0#8]
        | some f => [1#8, if f.cause = .starved then 0#8 else 1#8, byteOfNat f.entry.val] ++ putHalf f.pass
          ++ putWord f.index ++ [Table.chanState f.before])
    ++ (match k.stop with
        | none => [0#8]
        | some .immediate => [1#8, 0#8]
        | some .atPass => [1#8, 1#8]
        | some .atListEnd => [1#8, 2#8])
    ++ (match k.jump with
        | none => [0#8]
        | some j => [1#8, byteOfNat j.val])

/-- R22. -/
def OpenLoadRule (s t : State) (p : Port) (seg : Byte) (declared : Long) (vis : Byte) (label : Option Half) : Prop :=
  let n := (declared.toNat + 255) / 256
  if (s.loadUnit p).phase ≠ .noLoad then OnlyAnswered s t p Code.openLoad .loadOpen [seg]
  else if (s.seg (segOf seg)).state ≠ .free then OnlyAnswered s t p Code.openLoad .segmentState [seg]
  else if declared.toNat < 16 ∨ 65536 < declared.toNat ∨ 1 < vis.toNat then
    OnlyAnswered s t p Code.openLoad .badArgument [seg]
  else if s.freeList.length < n then OnlyAnswered s t p Code.openLoad .noSpace [seg]
  else
    Answered s t p Code.openLoad .ok (seg :: putWord n) ∧ OnlyAnswer s t p
      ∧ t.freeList = s.freeList.drop n
      ∧ (∀ m, t.page m = if m ∈ s.freeList.take n then { s.page m with state := .held } else s.page m)
      ∧ t.seg (segOf seg)
          = ⟨.loading, some p, some (if vis = 0#8 then .ownerOnly else .shared), some declared.toNat, none,
            s.freeList.take n, 0, false, label⟩
      ∧ OtherSegs s t (segOf seg)
      ∧ t.loadUnit p = ⟨.opened, some (segOf seg), 0, 0, [], false, (s.loadUnit p).readback⟩
      ∧ t.loadUnit p.other = s.loadUnit p.other
      ∧ { t with ports := s.ports, freeList := s.freeList, pages := s.pages, segs := s.segs, loads := s.loads } = s

/-- R23: the state before the arbiter judges a drain request. -/
def LoadDataRule (s t : State) (p : Port) (samples : List Sample) : Prop :=
  let u := s.loadUnit p
  let d := s.declaredOf u
  let answer := fun st => Answered s t p Code.loadData st []
  OnlyAnswer s t p ∧ t.loadUnit p.other = s.loadUnit p.other ∧ { t with ports := s.ports, loads := s.loads } = s
    ∧ (if u.phase = .noLoad then answer .noLoad ∧ t.loadUnit p = u
       else if samples.length = 0 ∨ 128 < samples.length then answer .badArgument ∧ t.loadUnit p = u
       else if u.oversize = true then answer .oversize ∧ t.loadUnit p = u
       else if u.phase = .aborting ∨ u.buffer ≠ [] then answer .busy ∧ t.loadUnit p = u
       else if u.received + samples.length ≤ d then
         answer .ok
           ∧ t.loadUnit p = { u with buffer := samples, received := u.received + samples.length }
       else
         answer .oversize
           ∧ t.loadUnit p = { u with
               buffer := samples.take (d - u.received), received := d, oversize := true })

/-- R26. A segment freed in the TOO-SHORT case, and the pages given back, are as R19 and R7 state (`State.freeSegment`,
`State.givePages`). -/
def CloseLoadRule (s t : State) (p : Port) : Prop :=
  let u := s.loadUnit p
  match u.seg with
  | none => OnlyAnswered s t p Code.closeLoad .noLoad []
  | some i =>
    let d := (s.seg i).declared.getD 0
    let r := u.received
    let keep := (r + 255) / 256
    let back := (s.seg i).pages.drop keep
    if u.phase = .noLoad then OnlyAnswered s t p Code.closeLoad .noLoad []
    else if u.phase = .aborting ∨ u.buffer ≠ [] then OnlyAnswered s t p Code.closeLoad .busy []
    else
      OnlyAnswer s t p ∧ t.loadUnit p = ⟨.noLoad, none, 0, 0, [], false, u.readback⟩
        ∧ t.loadUnit p.other = s.loadUnit p.other
        ∧ if r = d then
            Answered s t p Code.closeLoad .ok (byteOfNat i.val :: (putLongNat d ++ putWord 0))
              ∧ t.seg i = { s.seg i with state := .ready, length := some d } ∧ OtherSegs s t i
              ∧ { t with ports := s.ports, segs := s.segs, loads := s.loads } = s
          else if r < 16 then
            Answered s t p Code.closeLoad .tooShort
                (byteOfNat i.val :: (putLongNat 0 ++ putWord (s.seg i).pages.length))
              ∧ t.seg i = SegRec.freed
              ∧ { t with ports := s.ports, loads := s.loads } = { s.freeSegment i with ports := s.ports, loads := s.loads }
          else
            Answered s t p Code.closeLoad .short (byteOfNat i.val :: (putLongNat r ++ putWord back.length))
              ∧ t.seg i = { s.seg i with state := .ready, length := some r, pages := (s.seg i).pages.take keep }
              ∧ OtherSegs s t i
              ∧ { t with ports := s.ports, segs := s.segs, loads := s.loads }
                  = { s.givePages back with ports := s.ports, segs := s.segs, loads := s.loads }

/-- R118: the port's count is 0 after a request of its own is withdrawn, else as before; the arbiter's other fields stay. -/
def WithdrawnRule (s t : State) (p : Port) (withdrawn : Bool) : Prop :=
  t.arb.passOver.get p = (if withdrawn then 0 else s.arb.passOver.get p)
    ∧ t.arb.passOver.get p.other = s.arb.passOver.get p.other
    ∧ t.arb.rot = s.arb.rot ∧ t.arb.lastServed = s.arb.lastServed

/-- R27. -/
def AbortLoadRule (s t : State) (p : Port) : Prop :=
  let u := s.loadUnit p
  match u.phase, u.seg with
  | .noLoad, _ => OnlyAnswered s t p Code.abortLoad .noLoad []
  | .aborting, _ => OnlyAnswered s t p Code.abortLoad .ok [1#8]
  | .opened, none => True
  | .opened, some i =>
    OnlyAnswer s t p ∧ WithdrawnRule s t p (s.drainRequest p) ∧ t.loadUnit p.other = s.loadUnit p.other
      ∧ match s.drainInFlight p with
        | none =>
          Answered s t p Code.abortLoad .ok [0#8]
            ∧ t.loadUnit p = ⟨.noLoad, none, 0, 0, [], false, u.readback⟩ ∧ t.seg i = SegRec.freed
            ∧ OtherSegs s t i
            ∧ { t with ports := s.ports, loads := s.loads, arb := s.arb }
                = { s.freeSegment i with ports := s.ports, loads := s.loads }
        | some b =>
          Answered s t p Code.abortLoad .ok [1#8]
            ∧ t.loadUnit p = { u with phase := .aborting, buffer := u.buffer.take b.count }
            ∧ { t with ports := s.ports, loads := s.loads, arb := s.arb } = s

/-- R30: the state before a cancelled readback on the other port is answered (R37). -/
def DeleteRule (s t : State) (p : Port) (seg : Byte) : Prop :=
  let i := segOf seg
  let r := s.seg i
  if r.state = .free then OnlyAnswered s t p Code.deleteSegment .segmentState [seg]
  else if r.owner ≠ some p then OnlyAnswered s t p Code.deleteSegment .notOwner [seg]
  else if r.state = .loading then OnlyAnswered s t p Code.deleteSegment .segmentState [seg]
  else if r.state = .doomed then OnlyAnswered s t p Code.deleteSegment .ok (seg :: 3#8 :: putWord r.refs)
  else if r.refs = 0 then
    Answered s t p Code.deleteSegment .ok (seg :: 0#8 :: putWord 0) ∧ OnlyAnswer s t p
      ∧ { t with ports := s.ports } = s.freeSegment i
  else
    Answered s t p Code.deleteSegment .ok (seg :: 3#8 :: putWord r.refs) ∧ OnlyAnswer s t p
      ∧ t.seg i = { r with state := .doomed } ∧ OtherSegs s t i
      ∧ { t with ports := s.ports, segs := s.segs } = s

/-- R32. -/
def VisibilityRule (s t : State) (p : Port) (seg vis : Byte) : Prop :=
  let i := segOf seg
  let r := s.seg i
  if vis ≠ 0#8 ∧ vis ≠ 1#8 then OnlyAnswered s t p Code.setVisibility .badArgument [seg]
  else if r.state = .free then OnlyAnswered s t p Code.setVisibility .segmentState [seg]
  else if r.owner ≠ some p then OnlyAnswered s t p Code.setVisibility .notOwner [seg]
  else if r.state = .loading then OnlyAnswered s t p Code.setVisibility .segmentState [seg]
  else
    Answered s t p Code.setVisibility .ok [] ∧ OnlyAnswer s t p
      ∧ t.seg i = { r with vis := some (if vis = 0#8 then .ownerOnly else .shared) } ∧ OtherSegs s t i
      ∧ { t with ports := s.ports, segs := s.segs } = s

/-- R33, R34, R167: the state before the arbiter judges a read request. -/
def ReadSegmentRule (s t : State) (p : Port) (seg : Byte) (offset : Half) (count : Byte) : Prop :=
  let i := segOf seg
  let r := s.seg i
  let L := r.length.getD 0
  let o := offset.toNat
  let n := count.toNat
  if n < 1 ∨ 128 < n then OnlyAnswered s t p Code.readSegment .badArgument [seg]
  else if r.state = .free then OnlyAnswered s t p Code.readSegment .segmentState [seg]
  else if r.owner ≠ some p ∧ r.vis = some .ownerOnly then OnlyAnswered s t p Code.readSegment .notVisible [seg]
  else if r.state = .loading then OnlyAnswered s t p Code.readSegment .segmentState [seg]
  else if L ≤ o then OnlyAnswered s t p Code.readSegment .badArgument [seg]
  else
    OnlyAnswer s t p ∧ (t.port p).proto = .executing ∧ (t.port p).unread = none
      ∧ (t.port p).overrun = (s.port p).overrun
      ∧ (t.port p).lost = ((s.port p).lost || decide ((s.port p).proto = .ready))
      ∧ t.loadUnit p = { s.loadUnit p with
          readback := some ⟨i, o, o, if L < o + n then L - o else n, [], [], decide (L < o + n), .live⟩ }
      ∧ t.loadUnit p.other = s.loadUnit p.other
      ∧ { t with ports := s.ports, loads := s.loads } = s

/-- R25, R28, R12: the state before the arbiter decides. -/
def DrainRule (s t : State) (p : Port) (b : Burst) : Prop :=
  let u := s.loadUnit p
  t.burst = none
    ∧ t.mem = writeSlots b.page s.mem b.slots b.values
    ∧ t.ports = s.ports ∧ t.loadUnit p.other = s.loadUnit p.other
    ∧ match u.phase, u.seg with
      | .aborting, some i =>
        t.loadUnit p = ⟨.noLoad, none, 0, 0, [], false, u.readback⟩ ∧ t.seg i = SegRec.freed ∧ OtherSegs s t i
          ∧ { t with mem := s.mem, burst := none, loads := s.loads }
              = { ({ s with burst := none }).freeSegment i with loads := s.loads }
      | .aborting, none => True
      | .noLoad, _ | .opened, _ =>
        t.loadUnit p = { u with buffer := u.buffer.drop b.count, wpos := u.wpos + b.count }
          ∧ { t with mem := s.mem, burst := s.burst, loads := s.loads } = s

/-- R13, R8, R9: what the store does at the completion of a read burst, whoever asked for it. -/
def ReadEndRule (s t : State) (b : Burst) (bad : Bool) : Prop :=
  t.burst = none ∧ { t with burst := s.burst, pages := s.pages, freeList := s.freeList, retired := s.retired } = s
    ∧ (∀ n, n ≠ b.page → t.page n = s.page n)
    ∧ if bad = false then t.page b.page = s.page b.page ∧ t.freeList = s.freeList ∧ t.retired = s.retired
      else if (s.page b.page).state = .free then
        t.page b.page = ⟨.retired, true⟩ ∧ t.freeList = s.freeList.erase b.page ∧ t.retired = s.retired ++ [b.page]
      else
        t.page b.page = { s.page b.page with suspect := true } ∧ t.freeList = s.freeList ∧ t.retired = s.retired

/-- R35, R36: a kept burst of the readback rb of port p, which delivered these slots; u is the state once the store has
acted, t the state before the arbiter decides. -/
def ReadbackRule (s u t : State) (p : Port) (b : Burst) (rb : Readback) (slots : List Slot) : Prop :=
  let samples := rb.samples ++ slots.map Slot.value
  let suspects := rb.suspects ++ suspectIndices rb.next slots
  ReadEndRule s u b (slots.any Slot.bad)
    ∧ t.loadUnit p.other = u.loadUnit p.other
    ∧ { t with ports := u.ports, loads := u.loads } = u
    ∧ if rb.remaining - b.count = 0 then
        Answered s t p Code.readSegment
            (if suspects ≠ [] then .dataSuspect else if rb.clamped then .clamped else .ok)
            (byteOfNat rb.seg.val :: (putWord rb.offset ++ (byteOfNat samples.length :: putSamples samples)
              ++ suspectMap rb.offset suspects))
          ∧ OnlyAnswer s t p
          ∧ t.loadUnit p = { s.loadUnit p with readback := none }
      else
        t.ports = s.ports
          ∧ t.loadUnit p = { s.loadUnit p with
              readback := some { rb with
                next := rb.next + b.count, remaining := rb.remaining - b.count, samples := samples,
                suspects := suspects } }

/-- R35, R37: a discarded burst of port p; a cancelled readback that waited for it is answered. -/
def ReadDroppedRule (s u t : State) (p : Port) (b : Burst) (slots : List Slot) : Prop :=
  ReadEndRule s u b (slots.any Slot.bad)
    ∧ match (s.loadUnit p).readback with
      | some rb =>
        if rb.mark = .cancelledInFlight then
          Answered s t p Code.readSegment .segmentState [byteOfNat rb.seg.val] ∧ OnlyAnswer s t p
            ∧ t.loadUnit p = { s.loadUnit p with readback := none } ∧ t.loadUnit p.other = s.loadUnit p.other
            ∧ { t with ports := u.ports, loads := u.loads } = u
        else t = u
      | none => t = u

/-- R19, R37, R118: segment i becomes FREE. -/
def FreeRule (s t : State) (i : SegId) : Prop :=
  t.seg i = SegRec.freed ∧ OtherSegs s t i
    ∧ PagesBackRule s { t with segs := s.segs, loads := s.loads, burst := s.burst, arb := s.arb } (s.seg i).pages
    ∧ (∀ p, match (s.loadUnit p).readback with
        | some r =>
          t.loadUnit p =
            if r.seg = i ∧ r.mark = .live then
              { s.loadUnit p with
                readback := some { r with mark := if s.readInFlight p then .cancelledInFlight else .cancelled } }
            else s.loadUnit p
        | none => t.loadUnit p = s.loadUnit p)
    ∧ (let hit := fun p => (s.loadUnit p).readback.any fun r => decide (r.seg = i) && decide (r.mark = .live)
       (t.burst = s.burst.map fun b =>
          match b.requester with
          | .loadUnit p => if hit p = true ∧ b.write = false then { b with keep := false } else b
          | .fetcher _ => b)
         ∧ ∀ p, t.arb.passOver.get p = if hit p = true ∧ s.readRequest p = true then 0 else s.arb.passOver.get p)
    ∧ t.arb.rot = s.arb.rot ∧ t.arb.lastServed = s.arb.lastServed

/-- R37: a cancelled readback with none of its bursts in flight is answered at the event that cancelled it. -/
def CancelledRule (s t : State) : Prop :=
  { t with ports := s.ports, loads := s.loads } = s
    ∧ ∀ p, match (s.loadUnit p).readback with
      | some r =>
        if r.mark = .cancelled then
          Answered s t p Code.readSegment .segmentState [byteOfNat r.seg.val] ∧ SameLine s t p
            ∧ (t.port p).events = (s.port p).events ∧ t.loadUnit p = { s.loadUnit p with readback := none }
        else t.loadUnit p = s.loadUnit p ∧ t.port p = s.port p
      | none => t.loadUnit p = s.loadUnit p ∧ t.port p = s.port p

/-- R105, R38, R62: what the Fetcher of channel c does with its burst, which delivered these slots; u is the state once the
store has acted, t the state before the arbiter decides. -/
def FetchRule (s u t : State) (c : ChanId) (b : Burst) (slots : List Slot) : Prop :=
  let bad := slots.any Slot.bad
  let items := match b.keep, b.tag with
    | true, some g => fetchedItems g g.index (((s.chan c).fifo.getLast?.map Item.value).getD 0#16) slots
    | _, _ => []
  let fifo := (s.chan c).fifo ++ items
  let arrived := (s.chan c).state = .arming ∧ (64 ≤ fifo.length ∨ (s.chan c).cursor = none)
  let damage := bad = true ∧ items ≠ []
  let parity := fun e => if damage then raiseIn e (.chan c) .parity .nothing else e
  let armed := fun e => if arrived then raiseIn e (.chan c) .armed .nothing else e
  ReadEndRule s u b bad
    ∧ t.chan c = { s.chan c with fifo := fifo, state := if arrived then .armed else (s.chan c).state }
    ∧ OtherChans s t c
    ∧ (∀ i, t.seg i = if damage ∧ b.tag.map FetchTag.seg = some i then { s.seg i with damaged := true } else s.seg i)
    ∧ (∀ p, t.port p = { s.port p with events := armed (parity (s.port p).events) })
    ∧ { t with chans := u.chans, segs := u.segs, ports := u.ports } = u

/-! ## Sequence lists -/

/-- R47, R31: an entry releases segment i. -/
def ReleaseRule (s t : State) (i : SegId) : Prop :=
  let r := s.seg i
  if r.state = .doomed ∧ r.refs ≤ 1 then
    (∀ p, t.port p = { s.port p with
          events := if r.owner = some p then raiseIn (s.port p).events .device .segmentFreed (.segment i)
            else (s.port p).events })
      ∧ { t with ports := s.ports } = s.freeSegment i
  else
    t.seg i = { r with refs := r.refs - 1 } ∧ OtherSegs s t i ∧ { t with segs := s.segs } = s

/-- R42, R174: the entry that a record given by PUT-ENTRY writes. -/
def EntryRule (arg : EntryArg) (e : Entry) : Prop :=
  e.seg.val = arg.segment.toNat ∧ e.repeats = arg.repeats ∧ Table.direction e.dir = arg.direction
    ∧ e.wait = arg.wait ∧ e.leave = arg.leave ∧ e.mk1 = arg.mk1 ∧ e.mk2 = arg.mk2
    ∧ (arg.next = 0xFF#8 → e.next = none)
    ∧ (arg.next.toNat < 64 → ∃ x, e.next = some x ∧ x.val = arg.next.toNat)

/-- R48, R49, R50, R51: the state before a cancelled readback is answered (R37). `e` is the record given, `old` the one it
replaces. -/
def PutEntryRule (s t : State) (p : Port) (ch index : Byte) (arg : EntryArg) : Prop :=
  let refused := fun st => OnlyAnswered s t p Code.putEntry st [ch, index]
  if h : ch.toNat < 8 then
    let c : ChanId := ⟨ch.toNat, h⟩
    let l := (s.chan c).list
    let n := l.length
    let i := segOf arg.segment
    if (s.claimOf c).controller ≠ some p then refused .notController
    else if 2 < arg.direction.toNat ∨ (64 ≤ arg.next.toNat ∧ arg.next ≠ 0xFF#8) then refused .badArgument
    else if (s.chan c).state ≠ .idle ∧ (s.chan c).state ≠ .halted then refused .channelActive
    else if n < index.toNat then refused .badIndex
    else if index.toNat = n ∧ n = 64 then refused .listFull
    else if (s.seg i).state ≠ .ready then refused .segmentState
    else if (s.seg i).owner ≠ some p ∧ (s.seg i).vis = some .ownerOnly then refused .notVisible
    else
      ∃ e, EntryRule arg e ∧ SameLine s t p ∧
        let u := (s.setChan c { s.chan c with
            list := if index.toNat = n then l ++ [e] else l.set index.toNat e }).setSeg i
            { s.seg i with refs := (s.seg i).refs + 1 }
        match l[index.toNat]? with
          | none =>
            Answered s t p Code.putEntry .ok
                (ch :: index :: byteOfNat (n + 1) :: arg.segment :: putWord ((s.seg i).refs + 1))
              ∧ OnlyAnswer s t p ∧ { t with ports := s.ports } = u
          | some old =>
            let v := u.releaseSegment old.seg
            Answered s t p Code.putEntry .ok
                (ch :: index :: byteOfNat n :: arg.segment :: (putWord (v.seg i).refs
                  ++ (byteOfNat old.seg.val :: (putWord (v.seg old.seg).refs
                    ++ putFlag (decide ((v.seg old.seg).state = .free))))))
              ∧ (t.port p).events = (v.port p).events ∧ t.port p.other = v.port p.other
              ∧ { t with ports := s.ports } = { v with ports := s.ports }
  else refused .badArgument

/-- R52: the state before a cancelled readback is answered (R37). -/
def TrimRule (s t : State) (p : Port) (ch newLength : Byte) : Prop :=
  let refused := fun st => OnlyAnswered s t p Code.trimList st []
  if h : ch.toNat < 8 then
    let c : ChanId := ⟨ch.toNat, h⟩
    let l := (s.chan c).list
    let m := newLength.toNat
    if (s.claimOf c).controller ≠ some p then refused .notController
    else if (s.chan c).state ≠ .idle ∧ (s.chan c).state ≠ .halted then refused .channelActive
    else if l.length < m then refused .badIndex
    else
      let v := (s.setChan c { s.chan c with list := l.take m }).releaseAll (l.drop m)
      Answered s t p Code.trimList .ok
          (ch :: newLength :: byteOfNat (l.length - m) :: byteOfNat v.2.length :: v.2.map fun i => byteOfNat i.val)
        ∧ SameLine s t p
        ∧ (t.port p).events = (v.1.port p).events ∧ t.port p.other = v.1.port p.other
        ∧ { t with ports := s.ports } = { v.1 with ports := s.ports }
  else refused .badArgument

/-! ## Claims -/

/-- R151, R152. -/
def ClaimRule (s t : State) (p : Port) (mask : Byte) (yieldable take : Bool) : Prop :=
  if mask = 0#8 then OnlyAnswered s t p Code.claim .badArgument []
  else
    let refused := fun c : ChanId => decide ((s.claimOf c).controller = some p.other)
      && !(take && (s.claimOf c).yieldable)
    let taken := fun c : ChanId => decide ((s.claimOf c).controller = some p.other) && take && (s.claimOf c).yieldable
    (∀ c, t.claimOf c = if mask.getLsbD c.val = true ∧ refused c = false then ⟨some p, yieldable⟩ else s.claimOf c)
      ∧ (∀ c : ChanId, mask.getLsbD c.val = true → taken c = true →
          ∃ e ∈ (t.port p.other).events, e.source = .chan c ∧ e.kind = .claimLost)
      ∧ t.port p.other = { s.port p.other with
          events := ((List.finRange 8).filter fun c => mask.getLsbD c.val && taken c).foldl
            (fun l c => raiseIn l (.chan c) .claimLost .nothing) (s.port p.other).events }
      ∧ (t.port p).events = (s.port p).events ∧ SameLine s t p
      ∧ Answered s t p Code.claim (if (Table.channels mask).any refused then .claimedElsewhere else .ok)
          (byteOfNat (Table.channels mask).length :: (Table.channels mask).flatMap fun c =>
            (if (s.claimOf c).controller = none then 0#8 else if (s.claimOf c).controller = some p then 1#8
              else if taken c then 2#8 else 3#8)
              :: Table.controller (t.claimOf c).controller :: putFlag (t.claimOf c).yieldable)
      ∧ { t with ports := s.ports, claims := s.claims } = s

/-- R153. -/
def ReleaseCommandRule (s t : State) (p : Port) (mask : Byte) : Prop :=
  if mask = 0#8 then OnlyAnswered s t p Code.release .badArgument []
  else
    (∀ c, t.claimOf c =
        if mask.getLsbD c.val = true ∧ (s.claimOf c).controller = some p then ⟨none, false⟩ else s.claimOf c)
      ∧ (∃ released notHeld, Answered s t p Code.release .ok [released, notHeld]
          ∧ ∀ c : ChanId,
            (released.getLsbD c.val = (mask.getLsbD c.val && decide ((s.claimOf c).controller = some p)))
            ∧ (notHeld.getLsbD c.val = (mask.getLsbD c.val && decide ((s.claimOf c).controller ≠ some p))))
      ∧ OnlyAnswer s t p ∧ { t with ports := s.ports, claims := s.claims } = s

/-! ## Parameters and markers -/

/-- The first two checks of every changing command on one channel (R154): BAD-ARGUMENT, then NOT-CONTROLLER; then the
rest. -/
def OnChannel (s t : State) (p : Port) (code : Byte) (payload : List Byte) (ch : Byte) (rest : ChanId → Prop) : Prop :=
  if h : ch.toNat < 8 then
    if (s.claimOf ⟨ch.toNat, h⟩).controller ≠ some p then OnlyAnswered s t p code .notController payload
    else rest ⟨ch.toNat, h⟩
  else OnlyAnswered s t p code .badArgument payload

/-- A value given, or the one that stands; numbers at the nearest bound. -/
def numeric (lo hi old : Nat) : Option Nat → Nat
  | none => old
  | some n => max lo (min hi n)

/-- R82, R83, R58. The checks are made of a command that names no parameter too (log 37). -/
def StaticRule (s t : State) (p : Port) (ch : Byte) (a : StaticArgs) : Prop :=
  OnChannel s t p Code.setStatic [] ch fun c =>
    let k := s.chan c
    let two := fun b : Byte => decide (b.toNat < 2)
    let source := fun b : Byte => decide (b.toNat < 10 ∨ b = 0xFF#8)
    let named := a.interp.all two && a.combine.all two && a.endMode.all two && a.startSrc.all source
      && a.advSrc.all source && a.updSrc.all source
    let clamped := a.divider.any (fun h => decide (h.toNat < 1 ∨ 4096 < h.toNat))
      || a.prio.any (fun b => decide (3 < b.toNat))
    if k.state ≠ .idle ∧ k.state ≠ .halted then OnlyAnswered s t p Code.setStatic .channelActive []
    else if named = false then OnlyAnswered s t p Code.setStatic .badArgument []
    else if a.divider.isSome ∧ (s.chan (partner c)).state.active ∧ (s.chan (partner c)).stat.combine = .addPartner then
      OnlyAnswered s t p Code.setStatic .partnerBound []
    else
      let n := (t.chan c).stat
      n.divider = numeric 1 4096 k.stat.divider (a.divider.map BitVec.toNat)
        ∧ Table.Given Table.interp a.interp k.stat.interp n.interp
        ∧ Table.Given Table.combine a.combine k.stat.combine n.combine
        ∧ Table.Given Table.endMode a.endMode k.stat.endMode n.endMode
        ∧ n.idle = a.idle.getD k.stat.idle ∧ n.park = a.park.getD k.stat.park
        ∧ n.prio.val = numeric 0 3 k.stat.prio.val (a.prio.map BitVec.toNat)
        ∧ Table.Given Table.subscription a.startSrc k.stat.startSrc n.startSrc
        ∧ Table.Given Table.subscription a.advSrc k.stat.advSrc n.advSrc
        ∧ Table.Given Table.subscription a.updSrc k.stat.updSrc n.updSrc
        ∧ (if k.state = .idle ∧ n.idle ≠ k.stat.idle then
             (t.chan c).out = n.idle ∧ ((t.chan c).lane.toNat : Int) = n.idle.toInt + 32768
           else if k.state = .halted ∧ n.park ≠ k.stat.park then
             (t.chan c).out = n.park ∧ ((t.chan c).lane.toNat : Int) = n.park.toInt + 32768
           else (t.chan c).out = k.out ∧ (t.chan c).lane = k.lane)
        ∧ { t.chan c with stat := k.stat, out := k.out, lane := k.lane } = k
        ∧ OtherChans s t c
        ∧ Answered s t p Code.setStatic (if clamped then .clamped else .ok) (Table.static n)
        ∧ OnlyAnswer s t p ∧ { t with ports := s.ports, chans := s.chans } = s

/-- R142: the payload of a SET-LIVE that takes channel c from k to n (log 17): the live parameters, the record left, the
apply point before, and the fields clamped. -/
def liveReportBytes (c : ChanId) (k n : Chan) (clamped : List Byte) : List Byte :=
  [byteOfNat c.val]
    ++ putHalf n.live.gain ++ putHalf n.live.offset ++ putLongNat n.live.step ++ putHalf n.live.th1 ++ putHalf n.live.th2
    ++ putOpt putHalf n.staged.gain ++ putOpt putHalf n.staged.offset ++ putOpt putLongNat n.staged.step
    ++ putOpt putHalf n.staged.th1 ++ putOpt putHalf n.staged.th2
    ++ putOpt putByte (n.staged.point.map Table.point) ++ putOpt putByte (k.staged.point.map Table.point)
    ++ [byteOfNat clamped.length] ++ clamped

/-- R140, R141, R142. -/
def LiveRule (s t : State) (p : Port) (ch : Byte) (point : Option Byte) (a : LiveArgs) : Prop :=
  OnChannel s t p Code.setLive [] ch fun c =>
    let k := s.chan c
    let given : PendingRec :=
      ⟨a.gain.map fun w => BitVec.ofInt 16 (max (-32768) (min 32767 w.toInt)),
        a.offset.map fun w => BitVec.ofInt 16 (max (-32768) (min 32767 w.toInt)),
        a.step.map fun w => (max 1 (min 1048576 w.toInt)).toNat,
        a.th1.map fun w => BitVec.ofInt 16 (max (-32768) (min 32767 w.toInt)),
        a.th2.map fun w => BitVec.ofInt 16 (max (-32768) (min 32767 w.toInt)), none, false⟩
    let out := fun w : Long => decide (w.toInt < -32768 ∨ 32767 < w.toInt)
    let stepOut := fun w : Long => decide (w.toInt < 1 ∨ 1048576 < w.toInt)
    let clamped : List Byte := (if a.gain.any out then [0#8] else []) ++ (if a.offset.any out then [1#8] else [])
      ++ (if a.step.any stepOut then [2#8] else []) ++ (if a.th1.any out then [3#8] else [])
      ++ (if a.th2.any out then [4#8] else [])
    match point with
    | none => OnlyAnswered s t p Code.setLive .badArgument []
    | some b =>
      if 3 < b.toNat then OnlyAnswered s t p Code.setLive .badArgument []
      else ∃ pt, Table.point pt = b ∧
      let moved := k.state.playing = true ∧ k.staged.isEmpty = false ∧ k.staged.point ≠ some pt
      (if k.state.playing = false then
         t.chan c = { k with live := ⟨given.gain.getD k.live.gain, given.offset.getD k.live.offset,
            given.step.getD k.live.step, given.th1.getD k.live.th1, given.th2.getD k.live.th2⟩ }
       else
         (t.chan c).staged.gain = given.gain.or k.staged.gain ∧ (t.chan c).staged.offset = given.offset.or k.staged.offset
           ∧ (t.chan c).staged.step = given.step.or k.staged.step ∧ (t.chan c).staged.th1 = given.th1.or k.staged.th1
           ∧ (t.chan c).staged.th2 = given.th2.or k.staged.th2 ∧ (t.chan c).staged.group = k.staged.group
           ∧ (t.chan c).staged.point = (if k.staged.isEmpty && given.isEmpty then k.staged.point else some pt)
           ∧ { t.chan c with staged := k.staged } = k)
        ∧ OtherChans s t c
        ∧ Answered s t p Code.setLive (if moved then .applyMoved else if clamped ≠ [] then .clamped else .ok)
            (liveReportBytes c k (t.chan c) clamped)
        ∧ OnlyAnswer s t p ∧ { t with ports := s.ports, chans := s.chans } = s

/-- The first two checks of the commands on a mask (R154): an empty mask, then a channel that is not the port's. -/
def OnMask (s t : State) (p : Port) (code : Byte) (mask : Byte) (rest : Prop) : Prop :=
  if mask = 0#8 then OnlyAnswered s t p code .badArgument []
  else if ∃ c : ChanId, mask.getLsbD c.val = true ∧ (s.claimOf c).controller ≠ some p then
    OnlyAnswered s t p code .notController []
  else rest

/-- R147. -/
def GroupRule (s t : State) (p : Port) (mask : Byte) : Prop :=
  OnMask s t p Code.applyGroup mask <|
    (∀ c, t.chan c =
        if mask.getLsbD c.val = true ∧ (s.chan c).state.playing = true ∧ (s.chan c).staged.isEmpty = false then
          { s.chan c with staged := { (s.chan c).staged with group := true } }
        else s.chan c)
      ∧ (∃ groups, Answered s t p Code.applyGroup .ok [groups]
          ∧ ∀ c : ChanId, groups.getLsbD c.val = (t.chan c).staged.group)
      ∧ OnlyAnswer s t p ∧ { t with ports := s.ports, chans := s.chans } = s

/-- R129. -/
def MarkerRule (s t : State) (p : Port) (ch unit : Byte) (a : MarkerArgs) : Prop :=
  if h : ch.toNat < 8 ∧ unit.toNat < 2 then
    let c : ChanId := ⟨ch.toNat, h.1⟩
    let u : MkUnit := if unit = 0#8 then .mk1 else .mk2
    let o : MkUnit := if unit = 0#8 then .mk2 else .mk1
    let k := s.chan c
    let m := k.unit u
    let n := (t.chan c).unit u
    if (s.claimOf c).controller ≠ some p then OnlyAnswered s t p Code.setMarker .notController []
    else if k.state ≠ .idle ∧ k.state ≠ .halted then OnlyAnswered s t p Code.setMarker .channelActive []
    else if a.mode.any (fun b => decide (3 < b.toNat)) || a.polarity.any (fun b => decide (1 < b.toNat)) then
      OnlyAnswered s t p Code.setMarker .badArgument []
    else
      Table.Given Table.markerMode a.mode m.mode n.mode ∧ Table.Given Table.polarity a.polarity m.polarity n.polarity
        ∧ n.width = numeric 1 65535 m.width (a.width.map BitVec.toNat)
        ∧ n.hyst = numeric 0 4095 m.hyst (a.hyst.map BitVec.toNat)
        ∧ n.active = m.active ∧ n.remaining = m.remaining
        ∧ (t.chan c).unit o = k.unit o
        ∧ { t.chan c with mk1 := k.mk1, mk2 := k.mk2 } = k
        ∧ OtherChans s t c
        ∧ Answered s t p Code.setMarker
            (if a.width.any (fun w => decide (w.toNat = 0)) || a.hyst.any (fun w => decide (4095 < w.toNat)) then .clamped
              else .ok)
            ([Table.markerMode n.mode] ++ putWord n.width ++ [Table.polarity n.polarity] ++ putWord n.hyst)
        ∧ OnlyAnswer s t p ∧ { t with ports := s.ports, chans := s.chans } = s
  else OnlyAnswered s t p Code.setMarker .badArgument []

/-! ## Playback commands -/

/-- R63, R72: a channel in ARMING or ARMED that is disarmed: flushed, with start-pending and the latches cleared. -/
def DisarmedRule (k n : Chan) : Prop :=
  n = { k with
    fifo := [], cursor := none, target := none, underrun := false, passStalled := false, startPending := false,
    startLatch := false, advLatch := false, updLatch := false, state := .idle }

/-- R113: the burst in flight once the channels that `drops` picks have been flushed. -/
def droppedFor (o : Option Burst) (drops : ChanId → Bool) : Option Burst :=
  o.map fun b => match b.requester with
    | .fetcher c => if drops c then { b with keep := false } else b
    | .loadUnit _ => b

/-- R107, R110: the burst o in flight is channel c's own, marked KEEP, and carries the last item of the pass that its channel
k plays. -/
def CarriesEnd (k : Chan) (o : Option Burst) (c : ChanId) : Prop :=
  ∃ b g, o = some b ∧ b.requester = .fetcher c ∧ b.keep = true ∧ b.tag = some g
    ∧ g.entry = k.entry ∧ g.pass = k.pass ∧ g.index + b.count = g.length

/-- R101: run is what stands before the first last-of-pass item, it, of a FIFO, and rest what stands after it. -/
def SplitsAtEnd (fifo run : List Item) (it : Item) (rest : List Item) : Prop :=
  fifo = run ++ it :: rest ∧ (∀ x ∈ run, x.last = false) ∧ it.last = true

/-- R113: what a flush of channel c does to the burst in flight. -/
def FlushedBurst (s t : State) (c : ChanId) : Prop := t.burst = droppedFor s.burst fun d => decide (d = c)

/-- R59, R60, R61: the state before the arbiter judges the Fetcher's request. -/
def ArmRule (s t : State) (p : Port) (ch : Byte) : Prop :=
  OnChannel s t p Code.arm [ch] ch fun c =>
    let k := s.chan c
    let l := k.list
    let fails := fun (st : Status) (check : Byte) (bad : Entry → Prop) =>
      ∃ j : EntryIx, (∃ e, k.entryAt j = some e ∧ bad e)
        ∧ (∀ i : EntryIx, i < j → ∀ e, k.entryAt i = some e → ¬ bad e)
        ∧ OnlyAnswered s t p Code.arm st [ch, check, 1#8, byteOfNat j.val]
    let notReady := fun e : Entry => (s.seg e.seg).state ≠ .ready
    let hidden := fun e : Entry => (s.seg e.seg).owner ≠ some p ∧ (s.seg e.seg).vis = some .ownerOnly
    let unresolved := fun e : Entry => ∃ x, e.next = some x ∧ l.length ≤ x.val
    let sourceless := fun e : Entry => (e.wait = true ∨ e.leave = true) ∧ k.stat.advSrc = none
    if k.state ≠ .idle then OnlyAnswered s t p Code.arm .channelState [ch]
    else if s.monitor.clock = .lost then OnlyAnswered s t p Code.arm .noClock [ch]
    else if l = [] then OnlyAnswered s t p Code.arm .emptyList [ch, 1#8, 0#8]
    else if ∃ e ∈ l, notReady e then fails .segmentState 2#8 notReady
    else if ∃ e ∈ l, hidden e then fails .notVisible 3#8 hidden
    else if ∃ e ∈ l, e.next.any (fun x => decide (l.length ≤ x.val)) = true then fails .badIndex 4#8 unresolved
    else if ∃ e ∈ l, sourceless e then fails .noSource 5#8 sourceless
    else if k.stat.combine = .addPartner ∧ (s.chan (partner c)).stat.divider ≠ k.stat.divider then
      OnlyAnswered s t p Code.arm .partnerRate [ch, 6#8, 0#8]
    else
      t.chan c = { k with
          fifo := [], cursor := some ⟨0, 0#16, 0⟩, target := none, underrun := false, passStalled := false,
          startLatch := false, advLatch := false, updLatch := false, startPending := false, startRequest := false,
          entry := 0, pass := 0#16, pos := 0, consec := 0, scaled := 0, clipOpen := false, state := .arming }
        ∧ OtherChans s t c ∧ FlushedBurst s t c
        ∧ Answered s t p Code.arm .ok [ch] ∧ OnlyAnswer s t p
        ∧ { t with ports := s.ports, chans := s.chans, burst := s.burst } = s

/-- R63. -/
def DisarmRule (s t : State) (p : Port) (ch : Byte) : Prop :=
  OnChannel s t p Code.disarm [] ch fun c =>
    if (s.chan c).state = .arming ∨ (s.chan c).state = .armed then
      DisarmedRule (s.chan c) (t.chan c) ∧ OtherChans s t c ∧ FlushedBurst s t c
        ∧ Answered s t p Code.disarm .ok [] ∧ OnlyAnswer s t p
        ∧ { t with ports := s.ports, chans := s.chans, burst := s.burst } = s
    else OnlyAnswered s t p Code.disarm .channelState []

/-- R65. -/
def StartRule (s t : State) (p : Port) (mask : Byte) : Prop :=
  OnMask s t p Code.start mask <|
    let accepted := fun c : ChanId => decide ((s.chan c).state = .arming) || decide ((s.chan c).state = .armed)
    if s.monitor.clock = .lost then OnlyAnswered s t p Code.start .noClock []
    else
      (∀ c, t.chan c =
          if mask.getLsbD c.val = true ∧ accepted c = true then { s.chan c with startPending := true } else s.chan c)
        ∧ Answered s t p Code.start (if (Table.channels mask).all accepted then .ok else .channelState)
            (byteOfNat (Table.channels mask).length
              :: (Table.channels mask).map fun c => if accepted c then 0#8 else 1#8)
        ∧ OnlyAnswer s t p ∧ { t with ports := s.ports, chans := s.chans } = s

/-- R72 and the flushes of R113, one channel. -/
def StoppedRule (k n : Chan) (mode : StopPoint) : Prop :=
  let flushed := fun x : Chan =>
    { x with fifo := [], cursor := none, target := none, underrun := false, passStalled := false }
  match k.state with
  | .idle | .halted => n = k
  | .arming | .armed => DisarmedRule k n
  | .running =>
    let x := { k with stop := some mode, state := .stopping }
    n = if mode = .immediate then flushed x else x
  | .stopping =>
    match mode with
    | .immediate => n = flushed { k with stop := some .immediate }
    | .atPass => n = if k.stop = some .immediate then k else { k with stop := some .atPass }
    | .atListEnd => n = if k.stop = none then { k with stop := some .atListEnd } else k
  | .waiting => n = flushed { k with stop := some .immediate }

/-- R72. -/
def StopRule (s t : State) (p : Port) (mask mode : Byte) : Prop :=
  if 2 < mode.toNat then OnlyAnswered s t p Code.stop .badArgument []
  else ∃ m, Table.stop m = mode ∧
    (OnMask s t p Code.stop mask <|
      let accepted := fun c : ChanId => decide ((s.chan c).state ≠ .halted)
      (∀ c, if mask.getLsbD c.val = true then StoppedRule (s.chan c) (t.chan c) m else t.chan c = s.chan c)
        ∧ Answered s t p Code.stop (if (Table.channels mask).all accepted then .ok else .channelState)
            (byteOfNat (Table.channels mask).length
              :: (Table.channels mask).map fun c => if accepted c then 0#8 else 1#8)
        ∧ OnlyAnswer s t p
        ∧ t.burst = (droppedFor s.burst fun c => mask.getLsbD c.val &&
            match (s.chan c).state with
            | .arming | .armed | .waiting => true
            | .running | .stopping => decide (m = .immediate)
            | .idle | .halted => false)
        ∧ { t with ports := s.ports, chans := s.chans, burst := s.burst } = s)

/-- R74, R75, R110, R112: the state before the arbiter judges the Fetcher's request. -/
def JumpRule (s t : State) (p : Port) (ch target : Byte) : Prop :=
  OnChannel s t p Code.jump [] ch fun c =>
    let k := s.chan c
    if k.state.playing = false then OnlyAnswered s t p Code.jump .channelState []
    else if k.stop = some .atPass ∨ k.stop = some .immediate then OnlyAnswered s t p Code.jump .stopPending []
    else if k.list.length ≤ target.toNat ∨ 64 ≤ target.toNat then OnlyAnswered s t p Code.jump .badIndex []
    else
      ∃ j : EntryIx, j.val = target.toNat ∧ OtherChans s t c ∧ OnlyAnswer s t p
        ∧ { t with ports := s.ports, chans := s.chans, burst := s.burst } = s
        ∧ if k.state = .waiting then
            let waits := (k.entryAt j).any Entry.wait
            Answered s t p Code.jump .ok [0#8] ∧ FlushedBurst s t c
              ∧ t.chan c = { k with
                  entry := j, pass := 0#16, pos := 0, startRequest := !waits || k.advLatch,
                  advLatch := k.advLatch && !waits, fifo := [], target := none, cursor := some ⟨j, 0#16, 0⟩ }
          else
            Answered s t p Code.jump .ok (putOpt putByte (k.jump.map fun x => byteOfNat x.val))
              ∧ if k.fifo.any Item.last then
                  (∃ run it rest, SplitsAtEnd k.fifo run it rest
                    ∧ t.chan c = { k with
                        jump := some j, fifo := run ++ [it], cursor := some ⟨j, 0#16, 0⟩, target := none })
                    ∧ FlushedBurst s t c
                else
                  t.burst = s.burst
                    ∧ (CarriesEnd k s.burst c →
                        t.chan c = { k with jump := some j, cursor := some ⟨j, 0#16, 0⟩, target := none })
                    ∧ (¬ CarriesEnd k s.burst c → t.chan c = { k with jump := some j, target := some j })

/-- R77. -/
def ClearFaultRule (s t : State) (p : Port) (ch : Byte) : Prop :=
  OnChannel s t p Code.clearFault [] ch fun c =>
    let k := s.chan c
    if k.state ≠ .halted then OnlyAnswered s t p Code.clearFault .channelState []
    else
      (t.chan c).state = .idle ∧ (t.chan c).fault = none ∧ (t.chan c).consec = 0
        ∧ (t.chan c).out = k.stat.idle ∧ ((t.chan c).lane.toNat : Int) = k.stat.idle.toInt + 32768
        ∧ { t.chan c with state := k.state, fault := k.fault, consec := k.consec, out := k.out, lane := k.lane } = k
        ∧ OtherChans s t c
        ∧ Answered s t p Code.clearFault .ok ((k.fault.map Table.fault).getD [])
        ∧ OnlyAnswer s t p ∧ { t with ports := s.ports, chans := s.chans } = s

/-! ## Clock and ticks -/

/-- R76, R73, R113, R123, R133, R148: channel k halted with a cause, entered into HALTED as n, at an event that places the
park level. -/
def HaltedRule (k n : Chan) (cause : FaultCause) : Prop :=
  n.state = .halted
    ∧ n.fault = some ⟨cause, k.entry, k.pass, if k.state = .waiting then 0 else k.pos / 65536, k.state⟩
    ∧ n.out = k.stat.park ∧ (n.lane.toNat : Int) = k.stat.park.toInt + 32768
    ∧ n.fifo = [] ∧ n.cursor = none ∧ n.target = none ∧ n.underrun = false ∧ n.passStalled = false
    ∧ n.stop = none ∧ n.jump = none ∧ n.startPending = false ∧ n.startRequest = false
    ∧ n.startLatch = false ∧ n.advLatch = false ∧ n.updLatch = false ∧ n.clipOpen = false
    ∧ n.mk1 = { k.mk1 with active := false, remaining := 0 } ∧ n.mk2 = { k.mk2 with active := false, remaining := 0 }
    ∧ n.entry = k.entry ∧ n.pass = k.pass ∧ n.pos = k.pos ∧ n.list = k.list ∧ n.stat = k.stat
    ∧ n.scaled = k.scaled ∧ n.consec = k.consec ∧ n.totalUnder = k.totalUnder ∧ n.clipCount = k.clipCount
    ∧ (k.staged.isEmpty = false → n.live = ⟨k.staged.gain.getD k.live.gain, k.staged.offset.getD k.live.offset,
        k.staged.step.getD k.live.step, k.staged.th1.getD k.live.th1, k.staged.th2.getD k.live.th2⟩
      ∧ n.staged = ⟨none, none, none, none, none, none, false⟩)
    ∧ (k.staged.isEmpty = true → n.live = k.live ∧ n.staged = k.staged)

/-- R76, R148: what a channel raises when the clock is judged lost: in play FAULT, and APPLIED for a record that is not
empty. -/
def haltCauses (k : Chan) : List Kind :=
  if k.state.playing = true then .fault :: (if k.staged.isEmpty = true then [] else [.applied]) else []

/-- R80, R78: the monitor becomes LOST, s being the state in which all that belongs to the last edge is complete; u is the
state before the lines that fell are judged and delivered (R135). The time since the last edge and SCLK not running are the
model's (log 8); so is the event on the sender's word before 250 periods are counted (log 9). -/
def ClockLostRule (s u : State) : Prop :=
  u.monitor = ⟨.lost, 0, s.monitor.align, 250, false⟩
    ∧ (∀ c, u.tickOf c = .noTick)
    ∧ (∀ c, match (s.chan c).state with
        | .running | .waiting | .stopping => HaltedRule (s.chan c) (u.chan c) .clockLost
        | .arming | .armed =>
          (u.chan c).out = (s.chan c).stat.idle
            ∧ ((u.chan c).lane.toNat : Int) = (s.chan c).stat.idle.toInt + 32768
            ∧ { u.chan c with out := (s.chan c).out, lane := (s.chan c).lane }
                = { s.chan c with startPending := false, startLatch := false }
        | .idle =>
          (u.chan c).out = (s.chan c).stat.idle
            ∧ ((u.chan c).lane.toNat : Int) = (s.chan c).stat.idle.toInt + 32768
            ∧ { u.chan c with out := (s.chan c).out, lane := (s.chan c).lane } = s.chan c
        | .halted => u.chan c = s.chan c)
    ∧ (∀ p, (∃ e ∈ (u.port p).events, e.source = .device ∧ e.kind = .clockLost)
        ∧ (∀ c, (s.chan c).state.playing = true → ∃ e ∈ (u.port p).events, e.source = .chan c ∧ e.kind = .fault)
        ∧ u.port p = { s.port p with
            events := (List.finRange 8).foldl (fun l c => (haltCauses (s.chan c)).foldl
                (fun l k => raiseIn l (.chan c) k .nothing) l)
              (raiseIn (s.port p).events .device .clockLost .nothing) })
    ∧ (u.burst = droppedFor s.burst fun c => (s.chan c).state.playing)
    ∧ { u with chans := s.chans, ports := s.ports, monitor := s.monitor, ticks := s.ticks, burst := s.burst } = s

/-- R81, R79. The run length in PRESENT, and the last edge where no running SCLK was counted, are the model's (log 9). -/
def ClockBackRule (s t : State) : Prop :=
  t.monitor = ⟨.present, 0, 0, if s.monitor.sclkRuns = true then s.monitor.sinceEdge else 0, true⟩
    ∧ (∀ c, t.tickOf c = .noTick)
    ∧ (∀ p, t.port p = { s.port p with events := raiseIn (s.port p).events .device .clockRestored .nothing })
    ∧ { t with monitor := s.monitor, ticks := s.ticks, ports := s.ports } = s

/-- R79, R78: a rising edge of SCLK, s being the state in which all that belongs to the last edge is complete (log 5). The
time since the last edge starts again, and SCLK runs (log 8). -/
def EdgeRule (s t : State) : Prop :=
  t.monitor = ⟨s.monitor.clock, s.monitor.runLength, t.monitor.align, 0, true⟩
    ∧ { t with monitor := s.monitor, ticks := s.ticks } = s
    ∧ match s.monitor.clock with
      | .present =>
        t.monitor.align = s.monitor.align + 1
          ∧ ∀ c, t.tickOf c = if (s.monitor.align + 1) % (s.chan c).stat.divider = 0 then .due else .noTick
      | .lost => t.monitor.align = s.monitor.align ∧ ∀ c, t.tickOf c = .noTick

/-- R92, R93: the scaled value of channel k from the fetched samples a and b. -/
def scaledOf (k : Chan) (a b : Sample) : Int :=
  let f : Int := (k.pos % 65536 : Nat)
  let r : Int := if k.stat.interp = .linear then a.toInt + ((b.toInt - a.toInt) * f + 32768) / 65536 else a.toInt
  (r * k.live.gain.toInt + 8192) / 16384

/-- R94: the sum of channel k, with the partner's contribution h. -/
def sumOf (k : Chan) (a b : Sample) (h : Int) : Int :=
  if k.stat.combine = .addPartner then scaledOf k a b + k.live.offset.toInt + h else scaledOf k a b + k.live.offset.toInt

/-- R58, R86, R99: channel k with a value placed on its lane is n. -/
def PlacedRule (k n : Chan) (v : Int) : Prop :=
  n.out.toInt = v ∧ (n.lane.toNat : Int) = v + 32768 ∧ { n with out := k.out, lane := k.lane } = k

/-- R143: channel k with its pending record applied, if it is due and holds anything, and what that raises. -/
def applied (k : Chan) (due : Bool) : Chan × List Kind :=
  if due && !k.staged.isEmpty then
    ({ k with
        live := ⟨k.staged.gain.getD k.live.gain, k.staged.offset.getD k.live.offset, k.staged.step.getD k.live.step,
          k.staged.th1.getD k.live.th1, k.staged.th2.getD k.live.th2⟩
        staged := ⟨none, none, none, none, none, none, false⟩ }, [.applied])
  else (k, [])

/-- R130, R109, R145: the entry at which the channel of w stands starts: its marker pulses, the pass stalled flag cleared, a
PASS or ENTRY record applied. -/
def EntryStartRule (w w' : Work) : Prop :=
  let k := w.ch
  let e := k.entryAt k.entry
  let pulse := fun (m : Marker) (flag : Bool) =>
    if flag = true ∧ (m.mode = .entry ∨ m.mode = .pass) then { m with remaining := m.width } else m
  let r := applied
    { k with mk1 := pulse k.mk1 (e.any Entry.mk1), mk2 := pulse k.mk2 (e.any Entry.mk2), passStalled := false }
    (decide (k.staged.point = some .pass) || decide (k.staged.point = some .entry))
  w' = ⟨r.1, w.burst, w.raised ++ r.2⟩

/-- R68, R86: the channel of w enters entry j with a carry. -/
def EnterRule (w w' : Work) (j : EntryIx) (carry : Nat) : Prop :=
  let k := { w.ch with entry := j, pass := 0#16 }
  if (k.entryAt j).any Entry.wait = false then EntryStartRule { w with ch := { k with pos := carry } } w'
  else if k.advLatch = true then EntryStartRule { w with ch := { k with advLatch := false, pos := 0 } } w'
  else w' = { w with ch := { k with pos := 0, state := .waiting, scaled := 0 } }

/-- R67, R71, R127, R144, R146, R147: what comes first in an output tick of the channel of w, with the phase of the tick. -/
def BeginRule (w w' : Work) (phase : Phase) : Prop :=
  let k := w.ch
  let r := applied { k with updLatch := false }
    (k.staged.group || decide (k.staged.point = some .now) || (k.updLatch && decide (k.staged.point = some .trigger)))
  let v : Work := ⟨r.1, w.burst, w.raised ++ r.2⟩
  match k.state with
  | .idle | .arming => w' = w ∧ phase = .idleWord
  | .halted => w' = w ∧ phase = .parkWord
  | .armed =>
    if k.startPending = false then w' = w ∧ phase = .idleWord
    else
      EnterRule
          ⟨{ k with startPending := false, startLatch := false, entry := 0, pass := 0#16, pos := 0, state := .running },
            w.burst, w.raised ++ [.started]⟩ w' 0 0
        ∧ phase = if w'.ch.state = .waiting then .hold else .play
  | .running => w' = v ∧ phase = .play
  | .stopping => w' = v ∧ phase = if k.stop = some .immediate then .stopNow else .play
  | .waiting =>
    if k.stop = some .immediate then w' = v ∧ phase = .stopNow
    else if k.startRequest = true then
      phase = .play
        ∧ EntryStartRule
            { v with ch := { v.ch with
                startRequest := false, pos := 0, pass := 0#16,
                state := if k.stop = some .atListEnd then .stopping else .running } } w'
    else w' = v ∧ phase = .hold

/-- R73, R113, R123, R133, R148, R97: the channel c of w enters IDLE from play. -/
def IdleRule (c : ChanId) (w w' : Work) : Prop :=
  let k := w.ch
  let r := applied
    { k with
      state := .idle, fifo := [], cursor := none, target := none, underrun := false, passStalled := false, stop := none,
      jump := none, startRequest := false, startLatch := false, advLatch := false, updLatch := false, clipOpen := false,
      mk1 := { k.mk1 with active := false, remaining := 0 }, mk2 := { k.mk2 with active := false, remaining := 0 } } true
  w' = ⟨r.1, droppedFor w.burst fun d => decide (d = c), w.raised ++ r.2⟩

/-- R69, R70: what follows a pass end, in the six cases of R69 in their order; the passes-completed counter has risen. The
Fetcher is redirected after a leave (R111). -/
def PassRule (c : ChanId) (w w' : Work) (carry : Nat) : Prop :=
  let k := w.ch
  let here := k.entryAt k.entry
  let more := here.any fun e => decide (e.repeats = 0#16) || decide (k.pass.toNat < e.repeats.toNat)
  let stops := fun (m : Chan) (raised : List Kind) =>
    ∃ v, IdleRule c { w with ch := { m with pos := carry } } v ∧ w' = { v with raised := v.raised ++ raised }
  let listEnd := fun (m : Chan) (again : Work) =>
    if k.stat.endMode = .loop ∧ k.stop ≠ some .atListEnd then EnterRule again w' 0 carry
    else stops m (.listDone :: if k.stop = some .atListEnd then [.stopped] else [])
  if k.stop = some .atPass then stops k [.stopped]
  else match k.jump with
    | some j => EnterRule { w with ch := { k with jump := none } } w' j carry
    | none =>
      if here.any Entry.leave = true ∧ k.advLatch = true then
        let refetched := fun j : EntryIx => (⟨{ k with
          advLatch := false, fifo := [], target := none, cursor := some ⟨j, 0#16, 0⟩ },
          droppedFor w.burst fun d => decide (d = c), w.raised⟩ : Work)
        match successor k.list k.entry with
        | some j => EnterRule (refetched j) w' j carry
        | none => listEnd { k with advLatch := false } (refetched 0)
      else if more = true then
        let pulse := fun (m : Marker) (flag : Bool) =>
          if flag = true ∧ m.mode = .pass then { m with remaining := m.width } else m
        let r := applied
          { k with
            pos := carry, passStalled := false,
            mk1 := pulse k.mk1 (here.any Entry.mk1), mk2 := pulse k.mk2 (here.any Entry.mk2) }
          (decide (k.staged.point = some .pass))
        w' = ⟨r.1, w.burst, w.raised ++ r.2⟩
      else match successor k.list k.entry with
        | some j => EnterRule w w' j carry
        | none => listEnd k w

/-- R103: the cursor cur of channel k is taken past the end of its pass. -/
def PastPassRule (k m : Chan) (cur : Cursor) : Prop :=
  match k.target, k.list[cur.entry.val]? with
  | some j, _ => m = { k with cursor := some ⟨j, 0#16, 0⟩, target := none }
  | none, none => m = { k with cursor := none }
  | none, some e =>
    m = { k with
      cursor :=
        if e.repeats = 0#16 ∨ cur.pass.toNat + 1 < e.repeats.toNat then some ⟨cur.entry, cur.pass + 1#16, 0⟩
        else match successor k.list cur.entry with
          | some j => some ⟨j, 0#16, 0⟩
          | none => if k.stat.endMode = .loop ∧ k.stop ≠ some .atListEnd then some ⟨0, 0#16, 0⟩ else none }

/-- R107: the items of the ended pass still held by channel c are dropped; d is what the drop leaves. -/
def DropRule (c : ChanId) (w d : Work) : Prop :=
  let k := w.ch
  let carries := CarriesEnd k w.burst c
  if k.fifo.any Item.last = true then
    ∃ run it rest, SplitsAtEnd k.fifo run it rest ∧ d = { w with ch := { k with fifo := rest } }
  else
    d.burst = (droppedFor w.burst fun x => decide (x = c)) ∧ d.raised = w.raised
      ∧ (carries ∨ k.cursor = none → d.ch = { k with fifo := [] })
      ∧ ∀ cur, k.cursor = some cur → ¬ carries → PastPassRule { k with fifo := [] } d.ch cur

/-- R69, R107, R109: the pass of channel c of w ends in a segment of length L: the drop, the passes-completed counter, the
consecutive count back to 0 after a pass without a stalled tick, and then the cases of R69, of which `PassRule` speaks. -/
def PassEndRule (c : ChanId) (L : Nat) (w w' : Work) : Prop :=
  ∃ d, DropRule c w d
    ∧ w' = ({ d with ch := { d.ch with
        pass := d.ch.pass + 1#16, consec := if w.ch.passStalled = true then w.ch.consec else 0 } }).afterPass c
          (w.ch.pos - L * 65536)

/-- R58, R87, R89, R92 to R98, R106, R108, R131, R132: the first part of a tick, from the channel as the beginning of the
tick leaves it (b) to the word placed or left, with the position advanced and the markers counted and compared; h is the
partner's contribution. -/
def WordRule (segs : Vector SegRec 256) (h : Int) (b : Work) (phase : Phase) (w : Work) : Prop :=
  let k := b.ch
  w.burst = b.burst
    ∧ match phase with
      | .idleWord | .stopNow => PlacedRule k w.ch k.stat.idle.toInt ∧ w.raised = b.raised
      | .parkWord => PlacedRule k w.ch k.stat.park.toInt ∧ w.raised = b.raised
      | .hold => w.ch = { k with mk1 := k.mk1.countTick, mk2 := k.mk2.countTick } ∧ w.raised = b.raised
      | .play =>
        let m := { k with
          fifo := dropBelow (k.pos / 65536) k.fifo, mk1 := k.mk1.countTick, mk2 := k.mk2.countTick }
        match m.fetchPair (lengthOf segs k k.entry) with
        | some (a, a') =>
          let v := sumOf k a a' h
          let x := max (-32768) (min 32767 v)
          PlacedRule { m with
              scaled := scaledOf k a a', underrun := false, pos := k.pos + k.live.step, clipOpen := decide (x ≠ v),
              clipCount := if x = v then k.clipCount else min 65535 (k.clipCount + 1),
              mk1 := m.mk1.compareLevel x k.live.th1.toInt, mk2 := m.mk2.compareLevel x k.live.th2.toInt } w.ch x
            ∧ w.raised = b.raised ++ if x ≠ v ∧ k.clipOpen = false then [.clip] else []
        | none =>
          w.ch = { m with
              passStalled := true, underrun := true,
              consec := if k.underrun = true then k.consec else min 3 (k.consec + 1),
              totalUnder := if k.underrun = true then k.totalUnder else min 65535 (k.totalUnder + 1) }
            ∧ w.raised = b.raised ++ if k.underrun = true then [] else [.underrun]

/-- R58, R69, R73, R76, R108: the second part of a tick of channel c, from w, where the first part has left it, on: the stop,
the halt, or the pass end. k is the channel as the beginning of the tick left it. -/
def EndRule (segs : Vector SegRec 256) (c : ChanId) (k : Chan) (phase : Phase) (w w' : Work) : Prop :=
  match phase with
  | .idleWord | .parkWord | .hold => w' = w
  | .stopNow => ∃ v, IdleRule c w v ∧ w' = { v with raised := v.raised ++ [.stopped] }
  | .play =>
    let L := lengthOf segs k k.entry
    match ({ k with fifo := dropBelow (k.pos / 65536) k.fifo }).fetchPair L with
    | some _ => if w.ch.pos < L * 65536 then w' = w else PassEndRule c L w w'
    | none =>
      if k.underrun = false ∧ 2 ≤ k.consec then
        HaltedRule w.ch w'.ch .starved ∧ w'.burst = (droppedFor w.burst fun d => decide (d = c))
          ∧ w'.raised = w.raised ++ .fault :: if w.ch.staged.isEmpty = true then [] else [.applied]
      else w' = w

/-- The two parts of the tick of channel c: w1 is what the first leaves, with all it has raised, and w2 what the second
leaves, with what it has raised. What comes before them in the tick is `Work.beginTick`, of which `BeginRule` speaks. -/
def TickParts (s : State) (c : ChanId) (w1 w2 : Work) : Prop :=
  let b := (s.work c).beginTick
  WordRule s.segs (s.contribution (partner c)) b.1 b.2 w1 ∧ EndRule s.segs c b.1.ch b.2 { w1 with raised := [] } w2

/-- R135: the lines whose level changes from one state to another, and whose edge mode counts the change. -/
def lineChanges (before after : State) : List (Fin 4) :=
  (List.finRange 4).filter fun l =>
    decide (before.lineLevel l ≠ after.lineLevel l) && (after.modes.get (lineIndex l)).counts (after.lineLevel l)

/-- R135, R137: those lines as waiting trigger events, made by the marker of channel c at its tick. -/
def lineEvents (c : ChanId) (before after : State) : List SyncEvent := (lineChanges before after).map fun l => ⟨l, c⟩

/-- R58, R95, R135, R179: the tick of channel c taken; v is the state before the arbiter decides (log 34). -/
def TickRule (s v : State) (c : ChanId) : Prop :=
  ∃ w1 w2, TickParts s c w1 w2
    ∧ v.chan c = w2.ch ∧ OtherChans s v c ∧ v.burst = w2.burst
    ∧ (∀ p, v.port p = { s.port p with
        events := (w1.raised ++ w2.raised).foldl (fun l k => raiseIn l (.chan c) k .nothing) (s.port p).events })
    ∧ v.tickOf c = .done (s.contribution c) ∧ (∀ d, d ≠ c → v.tickOf d = s.tickOf d)
    ∧ v.syncEvents = s.syncEvents ++ lineEvents c s (s.setChan c w1.ch)
        ++ lineEvents c (s.setChan c w1.ch) (s.setChan c w2.ch)
    ∧ { v with
          chans := s.chans, burst := s.burst, ports := s.ports, ticks := s.ticks, syncEvents := s.syncEvents } = s

/-! ## Triggers, markers, sync lines -/

/-- R124, R125, R127: a trigger event at the three subscriptions of a channel k, one after another; at a deaf start
subscription it does nothing. -/
def StartEventRule (k n : Chan) (overrun deaf : Bool) : Prop :=
  if deaf = true ∨ (k.state ≠ .arming ∧ k.state ≠ .armed) then n = k ∧ overrun = false
  else if k.startLatch = true then n = k ∧ overrun = true
  else n = { k with startPending := true, startLatch := true } ∧ overrun = false

def AdvanceEventRule (k n : Chan) (overrun : Bool) : Prop :=
  if k.state.playing = false then n = k ∧ overrun = false
  else if k.state = .waiting ∧ k.startRequest = false then n = { k with startRequest := true } ∧ overrun = false
  else if k.advLatch = true then n = k ∧ overrun = true
  else n = { k with advLatch := true } ∧ overrun = false

def UpdateEventRule (k n : Chan) (overrun : Bool) : Prop :=
  if k.state.playing = false ∨ k.staged.isEmpty = true ∨ k.staged.point ≠ some .trigger then n = k ∧ overrun = false
  else if k.updLatch = true then n = k ∧ overrun = true
  else n = { k with updLatch := true } ∧ overrun = false

/-- R119, R124, R125, R127: a trigger event of a source at channel k: each subscription that names the source acts, start
before advance before update, and `overruns` of them find their latch set. -/
def ReachRule (k n : Chan) (src : Source) (deaf : Bool) (overruns : Nat) : Prop :=
  ∃ k1 k2 o1 o2 o3,
    (if k.stat.startSrc = some src then StartEventRule k k1 o1 deaf else k1 = k ∧ o1 = false)
      ∧ (if k.stat.advSrc = some src then AdvanceEventRule k1 k2 o2 else k2 = k1 ∧ o2 = false)
      ∧ (if k.stat.updSrc = some src then UpdateEventRule k2 n o3 else n = k2 ∧ o3 = false)
      ∧ overruns = o1.toNat + o2.toNat + o3.toNat

/-- R119, R179: the trigger event of a source reaches every channel, each overrun raises TRIGGER-OVERRUN to both ports
(log 35), and nothing else changes. A start subscription is deaf while the clock is LOST (R124), and that of the channel
`own`, whose marker made the event at its tick, is deaf to it (R137). -/
def TriggerRule (s t : State) (own : Option ChanId) (src : Source) : Prop :=
  (∃ overruns : ChanId → Nat,
    (∀ c, ReachRule (s.chan c) (t.chan c) src (decide (s.monitor.clock = .lost ∨ own = some c)) (overruns c))
      ∧ (∀ p, t.port p = { s.port p with
          events := (List.finRange 8).foldl
            (fun l c => (List.replicate (overruns c) Kind.triggerOverrun).foldl
              (fun l k => raiseIn l (.chan c) k .nothing) l) (s.port p).events })
      ∧ ∀ c p, 0 < overruns c → ∃ e ∈ (t.port p).events, e.source = .chan c ∧ e.kind = .triggerOverrun)
    ∧ (∀ c, (s.chan c).stat.startSrc ≠ some src → (s.chan c).stat.advSrc ≠ some src →
        (s.chan c).stat.updSrc ≠ some src → t.chan c = s.chan c)
    ∧ (∀ p, ∀ e ∈ (t.port p).events, e ∈ (s.port p).events ∨ ∃ c, e.source = .chan c ∧ e.kind = .triggerOverrun)
    ∧ { t with chans := s.chans, ports := s.ports } = s

/-- R119, R120: pin n is judged to be at a level. -/
def PinRule (s t : State) (n : Fin 4) (level : Bool) : Prop :=
  let u := { s with judged := s.judged.set n level }
  if s.judged.get n = level then t = s
  else match s.modes.get (pinIndex n) with
    | .off => t = u
    | .rising => if level then TriggerRule u t none (.trg n) else t = u
    | .falling => if level then t = u else TriggerRule u t none (.trg n)
    | .both => TriggerRule u t none (.trg n)

/-- R121. -/
def EdgeModeRule (s t : State) (p : Port) (source : Byte) (mode : Option Byte) : Prop :=
  if h : source.toNat < 8 then
    let n : Fin 8 := ⟨source.toNat, h⟩
    match mode with
    | none => OnlyAnswered s t p Code.setSourceEdge .ok [Table.edgeMode (s.modes.get n)]
    | some b =>
      if 3 < b.toNat then OnlyAnswered s t p Code.setSourceEdge .badArgument []
      else
        ∃ m, Table.edgeMode m = b ∧ Answered s t p Code.setSourceEdge .ok [source, Table.edgeMode (s.modes.get n), b]
          ∧ t.modes = s.modes.set n m ∧ SameLine s t p ∧ (t.port p).events = (s.port p).events
          ∧ t.port p.other = { s.port p.other with
              events := if m = s.modes.get n then (s.port p.other).events
                else raiseIn (s.port p.other).events .device .sharedChanged (.source n) }
          ∧ { t with ports := s.ports, modes := s.modes } = s
  else OnlyAnswered s t p Code.setSourceEdge .badArgument []

/-- R122. -/
def FireRule (s t : State) (p : Port) : Prop :=
  ∃ v starts advances updates, TriggerRule s v none (.soft p)
    ∧ Answered s t p Code.fire .ok [if p = .a then 8#8 else 9#8, starts, advances, updates]
    ∧ (∀ c : ChanId, starts.getLsbD c.val = decide ((s.chan c).stat.startSrc = some (.soft p))
        ∧ advances.getLsbD c.val = decide ((s.chan c).stat.advSrc = some (.soft p))
        ∧ updates.getLsbD c.val = decide ((s.chan c).stat.updSrc = some (.soft p)))
    ∧ SameLine s t p ∧ (t.port p).events = (v.port p).events ∧ t.port p.other = v.port p.other
    ∧ { t with ports := s.ports } = { v with ports := s.ports }

/-- R135: lines whose level changed outside a tick are judged and delivered at that event. -/
def LinesDelivered (before after t : State) : Prop :=
  t = (lineChanges before after).foldl (fun u l => u.trigger (.syn l)) after

/-- R136. -/
def DriverRule (s t : State) (p : Port) (line : Byte) (driver : Option DriverArg) : Prop :=
  if h : line.toNat < 4 then
    let l : Fin 4 := ⟨line.toNat, h⟩
    let before := s.drivers.get l
    match driver with
    | none => OnlyAnswered s t p Code.setSyncDriver .ok (Table.driver before ++ putFlag (s.lineLevel l))
    | some a =>
      if a.channel ≠ 0xFF#8 ∧ (7 < a.channel.toNat ∨ 1 < a.unit.toNat) then
        OnlyAnswered s t p Code.setSyncDriver .badArgument []
      else
        ∃ d : Option (ChanId × MkUnit), (if a.channel = 0xFF#8 then d = none
            else ∃ c u, d = some (c, u) ∧ c.val = a.channel.toNat ∧ Table.unit u = a.unit) ∧
        let other := fun x : ChanId × MkUnit => decide ((s.claimOf x.1).controller ≠ some p)
        if before.any other || d.any other then
          OnlyAnswered s t p Code.setSyncDriver .notController []
        else
          ∃ v, LinesDelivered s { s with drivers := s.drivers.set l d } v
            ∧ Answered s t p Code.setSyncDriver .ok
                (line :: (Table.driver before ++ Table.driver d
                  ++ putFlag (match d with
                    | some x => ((s.chan x.1).unit x.2).active
                    | none => false)))
            ∧ t.drivers = s.drivers.set l d
            ∧ SameLine s t p ∧ (t.port p).events = (v.port p).events ∧ t.port p.other = v.port p.other
            ∧ { t with ports := s.ports } = { v with ports := s.ports }
  else OnlyAnswered s t p Code.setSyncDriver .badArgument []

/-! ## Events -/

/-- R179: a cause reaches one event set. -/
def RaiseRule (before after : List EventEntry) (src : EventSource) (k : Kind) (d : Detail) : Prop :=
  if ∃ e ∈ before, e.source = src ∧ e.kind = k then
    after = before.map fun e => if e.source = src ∧ e.kind = k then { e with multiple := true } else e
  else ∀ e, e ∈ after ↔ e = ⟨src, k, d, false⟩ ∨ e ∈ before

/-- R181. -/
def TakeRule (s t : State) (p : Port) : Prop :=
  let l := (s.port p).events
  (t.port p).events = l.drop 32
    ∧ Answered s t p Code.takeEvents .ok
        (byteOfNat (min 32 l.length) :: (if 32 < l.length then 1#8 else 0#8) :: (l.take 32).flatMap Table.event)
    ∧ SameLine s t p ∧ t.port p.other = s.port p.other
    ∧ { t with ports := s.ports } = s

/-! ## The Store Arbiter -/

/-- R116, R117: of the channels that ask, one of the lowest priority number, and of that level the first from the level's
rotation pointer upward and around. -/
def State.First (s : State) (asks : ChanId → Bool) (c : ChanId) : Prop :=
  asks c = true ∧ (∀ d, asks d = true → (s.chan c).stat.prio ≤ (s.chan d).stat.prio)
    ∧ ∀ d, asks d = true → (s.chan d).stat.prio = (s.chan c).stat.prio →
        (c - s.arb.rot.get (s.chan c).stat.prio).val ≤ (d - s.arb.rot.get (s.chan c).stat.prio).val

/-- R116: of the ports that ask, the one that is not last served when both do. -/
def State.FirstPort (s : State) (asks : Port → Bool) (p : Port) : Prop :=
  asks p = true ∧ (asks p.other = true → s.arb.lastServed = p.other)

/-- R117, R118: the arbiter's fields after a grant. -/
def GrantedRule (s t : State) (r : Requester) : Prop :=
  (∀ k, t.arb.rot.get k =
      match r with
      | .fetcher c => if (s.chan c).stat.prio = k then c + 1 else s.arb.rot.get k
      | .loadUnit _ => s.arb.rot.get k)
    ∧ (∀ p, t.arb.passOver.get p =
        if r = .loadUnit p then 0
        else if s.portRequest p = true then min 8 (s.arb.passOver.get p + 1) else s.arb.passOver.get p)
    ∧ t.arb.lastServed = match r with
      | .fetcher _ => s.arb.lastServed
      | .loadUnit p => p

/-- R103: the cursor cur of channel k moves past a burst of n in a pass of a segment of length L. -/
def MoveRule (k m : Chan) (cur : Cursor) (n L : Nat) : Prop :=
  if cur.index + n < L then m = { k with cursor := some { cur with index := cur.index + n } }
  else PastPassRule k m cur

/-- R104: when the request of a Fetcher is outstanding, and when it is urgent. -/
def RequestRule (s : State) (c : ChanId) : Prop :=
  let k := s.chan c
  (s.fetchRequest c = true ↔
      k.cursor ≠ none ∧ (∀ b, s.burst = some b → b.requester ≠ .fetcher c)
        ∧ if k.state = .arming then k.fifo.length < 64 else k.fifo.length ≤ 32)
    ∧ (s.urgent c = true ↔
        s.fetchRequest c = true ∧ (k.state = .running ∨ k.state = .waiting ∨ k.state = .stopping)
          ∧ k.fifo.length < 16)

/-- R24, R35, R118: when a drain request and a read request of a Load Unit are outstanding, and when a port has aged. -/
def PortRequestRule (s : State) (p : Port) : Prop :=
  let u := s.loadUnit p
  let own := ∃ b, s.burst = some b ∧ b.requester = .loadUnit p
  (s.drainRequest p = true ↔ u.phase = .opened ∧ u.buffer ≠ [] ∧ ¬ own)
    ∧ (s.readRequest p = true ↔ (∃ r, u.readback = some r ∧ r.mark = .live) ∧ u.buffer = [] ∧ ¬ own)
    ∧ (s.portRequest p = true ↔ s.drainRequest p = true ∨ s.readRequest p = true)
    ∧ (s.aged p = true ↔ s.portRequest p = true ∧ s.arb.passOver.get p = 8)

/-- R104, R24, R35: what goes into flight at a grant to r. -/
def InFlightRule (s t : State) (r : Requester) : Prop :=
  match r with
  | .fetcher c =>
    ∀ cur e, (s.chan c).cursor = some cur → (s.chan c).list[cur.entry.val]? = some e →
      let b := fetchBurst c (s.seg e.seg) e cur (s.chan c).fifo.length
      t.burst = some b ∧ MoveRule (s.chan c) (t.chan c) cur b.count ((s.seg e.seg).length.getD 0) ∧ OtherChans s t c
        ∧ { t with burst := s.burst, chans := s.chans, arb := s.arb } = s
  | .loadUnit p =>
    { t with burst := s.burst, arb := s.arb } = s
      ∧ if s.drainRequest p = true then
          ∀ i, (s.loadUnit p).seg = some i → t.burst = some (drainBurst p (s.seg i) (s.loadUnit p))
        else ∀ rb, (s.loadUnit p).readback = some rb → t.burst = some (readBurst p (s.seg rb.seg) rb)

/-! ## Who may change a channel -/

/-- The channel that a changing command on one channel names (R154). -/
def changes : Instr → Option (Port × Byte)
  | .putEntry p ch _ _ | .trimList p ch _ | .arm p ch | .disarm p ch | .jump p ch _ | .clearFault p ch
  | .setStatic p ch _ | .setLive p ch _ _ | .setMarker p ch _ _ => some (p, ch)
  | _ => none

/-- The mask that a changing command on several channels names (R154). -/
def changesAll : Instr → Option (Port × Byte)
  | .start p mask | .stop p mask _ | .applyGroup p mask => some (p, mask)
  | _ => none

end Sys2Proof.Machine

open Sys2Proof Sys2Proof.Machine

/-! # The obligations -/

/-! ### The queue and the link -/

/-- A step takes the command at the front of the queue. -/
def Obligations.StepTakesFront : Prop :=
  ∀ (c : Instr) (s : State), step { s with pending := c :: s.pending } = exec c s

/-- Every well-formed command survives encoding into a frame and into bits, and decoding. -/
def Obligations.FramesRoundTrip : Prop :=
  (∀ (p : Port) (i : Instr), framePort i = some p → i.wf = true →
      ∃ code payload bytes, Table.command i = some (code, payload)
        ∧ bytes = [0xA5#8, code] ++ putWord payload.length ++ payload
            ++ putHalf (crc16 ([code] ++ putWord payload.length ++ payload))
        ∧ encodeFrame i = some bytes ∧ bytes.length = frameLength i ∧ decodeFrame p bytes = .ok i
        ∧ ∀ tail : List Bool, tail.length < 8 → transactionOf p (bitsOfBytes bytes ++ tail) = some i)
    ∧ (∀ (p : Port) (bytes : List Byte) (tail : List Bool), tail.length < 8 →
      bytesOfBits (bitsOfBytes bytes ++ tail) = bytes
        ∧ transactionOf p (bitsOfBytes (0xC3#8 :: bytes) ++ tail) = some (.readTransaction p bytes.length)
        ∧ transactionOf p tail = none
        ∧ ∀ (b : Byte) (e : FrameError), b ≠ 0xC3#8 → decodeFrame p (b :: bytes) = .error e →
            transactionOf p (bitsOfBytes (b :: bytes) ++ tail) = some (.badFrame p (b :: bytes)))
    ∧ FieldRule

/-- A frame that fails a check of R166 is answered with its status and nothing else happens. -/
def Obligations.RefusedFrameAnswered : Prop :=
  (∀ (p : Port) (bytes : List Byte), FrameRule p bytes) ∧ (∀ l : List Byte, CrcRule l)
  ∧ crc16 [0x31#8, 0x32#8, 0x33#8, 0x34#8, 0x35#8, 0x36#8, 0x37#8, 0x38#8, 0x39#8] = 0x29B1#16
  ∧ ∀ (s : State) (p : Port) (b : Byte) (bytes : List Byte) (e : FrameError),
    s.Listening p → b ≠ 0xC3#8 → decodeFrame p (b :: bytes) = .error e →
    ∃ t, exec (.badFrame p (b :: bytes)) s = .next t
      ∧ OnlyAnswered (s.clockOut p (bytes.length + 1)) t p ((b :: bytes).getD 1 0x00#8)
          (match e with
           | .badFrame => .badFrame
           | .unknownCommand => .unknownCommand
           | .badShape => .badArgument) []

/-- In EXECUTING a released frame sets OVERRUN only; under RESET or PRST it is not seen. -/
def Obligations.FramesNotTaken : Prop :=
  (∀ (s : State) (p : Port) (i : Instr) (n : Nat), s.resetHeld = false → (s.port p).prstHeld = false →
      (s.port p).proto = .executing →
      (framePort i = some p ∧ n = frameLength i ∨ i = .overrun p ∧ n = 1
        ∨ ∃ bytes, bytes.head?.any (· ≠ 0xC3#8) = true ∧ i = .badFrame p bytes ∧ n = bytes.length) →
      ∃ t, exec i s = .next t ∧ DiscardedRule s t p n)
    ∧ (∀ (s : State) (p : Port) (i : Instr), s.resetHeld = true ∨ (s.port p).prstHeld = true →
      (framePort i = some p ∨ i = .overrun p ∨ (∃ bytes, i = .badFrame p bytes) ∨ ∃ n, i = .readTransaction p n) →
      exec i s = .next s ∧ attn s.resetHeld (s.port p) = false ∧ rdy s.resetHeld (s.port p) = false)

/-- A read transaction shifts out the unread response, laid out as in 10.4; RDY is asserted in RESPONSE-READY. -/
def Obligations.ReadTransactions : Prop :=
  (∀ (s : State) (p : Port) (n : Nat), s.ProtocolLaw → s.resetHeld = false → (s.port p).prstHeld = false →
      ∃ t, exec (.readTransaction p n) s = .next t ∧ ReadRule s t p n)
    ∧ (∀ r : Response, ResponseRule r)
    ∧ (∀ overrun lost pending : Bool,
      let f := flagsByte overrun lost pending
      f.getLsbD 0 = overrun ∧ f.getLsbD 1 = lost ∧ f.getLsbD 2 = pending ∧ ∀ k, 3 ≤ k → f.getLsbD k = false)
    ∧ ∀ (s : State) (p : Port),
      rdy s.resetHeld (s.port p) =
        if s.resetHeld = true ∨ (s.port p).prstHeld = true then false else decide ((s.port p).proto = .ready)

/-! ### Resets -/

/-- A device reset gives every record its reset value; the release of RESET takes up the pin levels. -/
def Obligations.DeviceReset : Prop :=
  ∀ s : State, (∃ t, exec .deviceReset s = .next t ∧ DeviceResetRule s t)
    ∧ ∀ levels, s.resetHeld = true → ∃ t, exec (.resetRelease levels) s = .next t
      ∧ t.resetHeld = false ∧ (∀ n, t.judged.get n = levels.getLsbD n.val)
      ∧ { t with resetHeld := true, judged := s.judged } = s

/-- A port reset, by PRST or RESET-PORT, has the effects of R161 and leaves the rest of the part alone. -/
def Obligations.PortResets : Prop :=
  ∀ (s : State) (p : Port),
    (s.LoadLaw → ∃ t, exec (.portReset p) s = .next t ∧ PortResetRule s t p
        ∧ t.port p = { s.port p with
            proto := .idle, unread := none, overrun := false, lost := false, events := [], enable := 0#15,
            prstHeld := true })
      ∧ (s.LoadLaw → s.Listening p → ∃ t, exec (.resetPort p) s = .next t ∧ PortResetRule (s.took (.resetPort p)) t p
        ∧ t.port p = { (s.took (.resetPort p)).port p with
            proto := .ready, unread := some ⟨Code.resetPort, .ok, 0#8, [], 0⟩, overrun := false, lost := false,
            events := [], enable := 0#15 })
      ∧ ∃ t, exec (.prstRelease p) s = .next t ∧ t = s.setPort p { s.port p with prstHeld := false }

/-! ### Store, segments, loads -/

/-- IDENTIFY and the five queries answer OK and change nothing else. -/
def Obligations.QueriesReport : Prop :=
  ∀ (s : State) (p : Port), s.Listening p →
    (∃ t, exec (.identify p) s = .next t ∧ OnlyAnswered (s.took (.identify p)) t p Code.identify .ok
        [0x4B#8, 0x21#8, 0x85#8, 0x40#8, 0x01#8, 0x08#8, 0x00#8, 0x01#8, 0x00#8, 0x08#8])
    ∧ (∃ t, exec (.queryStore p) s = .next t ∧ OnlyAnswered (s.took (.queryStore p)) t p Code.queryStore .ok
        (putWord s.freeList.length ++ putWord (s.pages.toList.countP fun r => decide (r.state = .held))
          ++ putWord s.retired.length ++ putWord (s.segs.toList.countP fun r => decide (r.state = .free))
          ++ [byteOfNat (s.segs.toList.countP fun r => decide (r.state = .loading))]
          ++ putWord (s.segs.toList.countP fun r => decide (r.state = .ready))
          ++ putWord (s.segs.toList.countP fun r => decide (r.state = .doomed)) ++ putWord (headRun s.freeList))
        ∧ HeadRunRule s.freeList (headRun s.freeList))
    ∧ (∀ seg, ∃ t payload, exec (.querySegment p seg) s = .next t ∧ SegmentReportRule s (segOf seg) payload
        ∧ OnlyAnswered (s.took (.querySegment p seg)) t p Code.querySegment .ok payload)
    ∧ (∀ ch index, ∃ t, exec (.queryEntry p ch index) s = .next t
        ∧ let u := s.took (.queryEntry p ch index)
          if h : ch.toNat < 8 then
            match (s.chan ⟨ch.toNat, h⟩).list[index.toNat]? with
            | none => OnlyAnswered u t p Code.queryEntry .badIndex []
            | some e => OnlyAnswered u t p Code.queryEntry .ok
                ([ch, index] ++ Table.entry e ++ [Table.segState (s.seg e.seg).state]
                  ++ putLongNat ((s.seg e.seg).length.getD 0) ++ putWord (s.seg e.seg).refs)
          else OnlyAnswered u t p Code.queryEntry .badArgument [])
    ∧ (∀ ch, ∃ t payload, exec (.queryList p ch) s = .next t
        ∧ if h : ch.toNat < 8 then
            ListReportRule s ⟨ch.toNat, h⟩ payload
              ∧ OnlyAnswered (s.took (.queryList p ch)) t p Code.queryList .ok payload
          else OnlyAnswered (s.took (.queryList p ch)) t p Code.queryList .badArgument [])
    ∧ (∀ ch, ∃ t payload, exec (.queryChannel p ch) s = .next t
        ∧ if h : ch.toNat < 8 then
            ChannelReportRule s ⟨ch.toNat, h⟩ payload
              ∧ OnlyAnswered (s.took (.queryChannel p ch)) t p Code.queryChannel .ok payload
          else OnlyAnswered (s.took (.queryChannel p ch)) t p Code.queryChannel .badArgument [])

/-- OPEN-LOAD: its four checks in order, the pages given, the LOADING record and the open Load Unit. -/
def Obligations.OpenLoads : Prop :=
  ∀ (s : State) (p : Port) (seg : Byte) (declared : Long) (vis : Byte) (label : Option Half), s.Listening p →
    ∃ t, exec (.openLoad p seg declared vis label) s = .next t
      ∧ OpenLoadRule (s.took (.openLoad p seg declared vis label)) t p seg declared vis label

/-- LOAD-DATA: the six cases in order, with the samples kept and the received count. -/
def Obligations.LoadsData : Prop :=
  ∀ (s : State) (p : Port) (samples : List Sample), s.Listening p →
    ∃ t, exec (.loadData p samples) s = .next t.arbitrate ∧ LoadDataRule (s.took (.loadData p samples)) t p samples

/-- CLOSE-LOAD: NO-LOAD, BUSY, OK, SHORT and TOO-SHORT, with the pages given back. -/
def Obligations.ClosesLoads : Prop :=
  ∀ (s : State) (p : Port), s.LoadLaw → s.Listening p →
    ∃ t, exec (.closeLoad p) s = .next t ∧ CloseLoadRule (s.took (.closeLoad p)) t p

/-- ABORT-LOAD: refused, PENDING while a write burst is in flight, or the segment freed at once. -/
def Obligations.AbortsLoads : Prop :=
  ∀ (s : State) (p : Port), s.LoadLaw → s.Listening p →
    ∃ t, exec (.abortLoad p) s = .next t ∧ AbortLoadRule (s.took (.abortLoad p)) t p

/-- DELETE-SEGMENT: the six cases in order. -/
def Obligations.DeletesSegments : Prop :=
  ∀ (s : State) (p : Port) (seg : Byte), s.ProtocolLaw → s.Listening p →
    ∃ t, exec (.deleteSegment p seg) s = .next t.settleCancelled ∧ DeleteRule (s.took (.deleteSegment p seg)) t p seg

/-- SET-VISIBILITY: its refusals in order, or the visibility field alone takes the value. -/
def Obligations.SetsVisibility : Prop :=
  ∀ (s : State) (p : Port) (seg vis : Byte), s.Listening p →
    ∃ t, exec (.setVisibility p seg vis) s = .next t ∧ VisibilityRule (s.took (.setVisibility p seg vis)) t p seg vis

/-- READ-SEGMENT: its five checks in order, or the port EXECUTING with the readback recorded. -/
def Obligations.ReadsSegments : Prop :=
  ∀ (s : State) (p : Port) (seg : Byte) (offset : Half) (count : Byte), s.ProtocolLaw → s.Listening p →
    ∃ t, ReadSegmentRule (s.took (.readSegment p seg offset count)) t p seg offset count
      ∧ exec (.readSegment p seg offset count) s
          = .next (if (t.port p).proto = .executing then t.arbitrate else t)

/-- Pages given back, segments freed, readbacks of a freed segment cancelled and answered. -/
def Obligations.SegmentsFreed : Prop :=
  (∀ (s : State) (l : List PageNo), PagesBackRule s (s.givePages l) l)
    ∧ (∀ (s : State) (i : SegId), FreeRule s (s.freeSegment i) i)
    ∧ (∀ s : State, (∀ p, (s.port p).proto = .ready → (s.loadUnit p).readback = none) →
        CancelledRule s s.settleCancelled)

/-- The completion of a write burst writes its slots and moves the Load Unit on, or ends an abort. -/
def Obligations.DrainsComplete : Prop :=
  ∀ (s : State) (p : Port) (b : Burst), s.LoadLaw → s.burst = some b → b.requester = .loadUnit p → b.write = true →
    ∃ t, exec .drainBurstComplete s = .next t.arbitrate ∧ DrainRule s t p b

/-- The completion of a readback burst extends the readback, answers it, or discards the items. -/
def Obligations.ReadbacksComplete : Prop :=
  ∀ (s : State) (us : List Upset) (p : Port) (b : Burst), s.ProtocolLaw → s.burst = some b →
    b.requester = .loadUnit p → b.write = false →
    ∃ u t, exec (.readbackBurstComplete us) s = .next t.arbitrate
      ∧ (b.keep = true → ∀ rb, (s.loadUnit p).readback = some rb →
          ReadbackRule (s.disturb us) u t p b rb ((s.disturb us).readSlots b))
      ∧ (b.keep = false → ReadDroppedRule (s.disturb us) u t p b ((s.disturb us).readSlots b))
      ∧ (∀ (k : Nat) (slots : List Slot),
          (suspectIndices k slots).Pairwise (· < ·)
            ∧ ∀ n, n ∈ suspectIndices k slots ↔ ∃ j x, slots[j]? = some x ∧ Slot.bad x = true ∧ n = k + j)
      ∧ ∀ (offset : Nat) (suspects : List Nat),
          (suspectMap offset suspects).length = 16
            ∧ ∀ j, j < 128 → ∃ m, (suspectMap offset suspects)[j / 8]? = some m
              ∧ m.getLsbD (7 - j % 8) = decide (offset + j ∈ suspects)

/-- The completion of a fetch burst appends its items, substitutes bad ones and ends prefill. -/
def Obligations.FetchesComplete : Prop :=
  (∀ (s : State) (us : List Upset) (c : ChanId) (b : Burst), s.burst = some b → b.requester = .fetcher c →
      ∃ u t, exec (.fetchBurstComplete us) s = .next t.arbitrate
        ∧ FetchRule (s.disturb us) u t c b ((s.disturb us).readSlots b))
    ∧ (∀ (g : FetchTag) (q : Nat) (prev : Sample) (slots : List Slot) (k : Nat) (x : Slot), slots[k]? = some x →
      ∃ it, (fetchedItems g q prev slots)[k]? = some it
        ∧ it.entry = g.entry ∧ it.pass = g.pass ∧ it.index = q + k ∧ it.last = decide (q + k + 1 = g.length)
        ∧ (Slot.bad x = false → it.value = x.value)
        ∧ (Slot.bad x = true → it.value = match k with
            | 0 => prev
            | j + 1 => ((fetchedItems g q prev slots)[j]?.map Item.value).getD 0#16))

/-- A written slot has even parity and reads back; a disturbed bit count decides the verdict. -/
def Obligations.SlotsWrittenAndRead : Prop :=
  ((∀ v : Half, (writtenSlot v).value = v ∧ Slot.bad (writtenSlot v) = false
        ∧ (ones (writtenSlot v).value + (writtenSlot v).parity.toNat) % 2 = 0)
      ∧ (∀ x : Slot, Slot.bad x = decide ((ones x.value + x.parity.toNat) % 2 = 1))
      ∧ (∀ x m : Slot, Slot.bad (x.flip m) = (Slot.bad x ^^ decide ((ones m.value + m.parity.toNat) % 2 = 1)))
      ∧ writtenSlot 2000#16 = ⟨0x07D0#16, false⟩ ∧ writtenSlot 1#16 = ⟨1#16, true⟩
      ∧ writtenSlot 0x8000#16 = ⟨0x8000#16, true⟩ ∧ writtenSlot 0x7FFF#16 = ⟨0x7FFF#16, true⟩)
    ∧ (∀ (s : State) (b : Burst) (j : Nat) (v : Sample), b.ascending = true → b.count ≤ b.values.length →
      (∀ a, (∀ k, k < b.count → a ≠ slotAddr b.page (b.first + k)) →
        ({ s with mem := writeSlots b.page s.mem b.slots b.values }).slot a = s.slot a)
      ∧ (j < b.count → b.values[j]? = some v →
          ({ s with mem := writeSlots b.page s.mem b.slots b.values }).slot (slotAddr b.page (b.first + j))
            = writtenSlot v))
    ∧ (∀ (s : State) (b : Burst), (s.readSlots b).length = b.count
      ∧ ∀ j, j < b.count → (s.readSlots b)[j]? =
          some (s.slot (b.page.val * 256 + if b.ascending = true then b.first + j else b.first - j)))
    ∧ (∀ (page : PageNo) (n : Nat), slotAddr page n = page.val * 256 + n)
    ∧ (∀ (s : State) (u : Upset) (us : List Upset),
      (∀ a, a ≠ u.addr → (s.disturb [u]).slot a = s.slot a)
        ∧ (∀ x, (u.addr, x) ∈ s.mem → ∀ k, ((s.disturb [u]).slot u.addr).value.getLsbD k
            = ((s.slot u.addr).value.getLsbD k ^^ u.mask.value.getLsbD k))
        ∧ (∀ x, (u.addr, x) ∈ s.mem →
            ((s.disturb [u]).slot u.addr).parity = ((s.slot u.addr).parity ^^ u.mask.parity))
        ∧ ((∀ x, (u.addr, x) ∉ s.mem) → s.disturb [u] = s)
        ∧ s.disturb [] = s ∧ s.disturb (u :: us) = (s.disturb [u]).disturb us
        ∧ { s.disturb us with mem := s.mem } = s)

/-! ### Lists and claims -/

/-- PUT-ENTRY: its checks in order, the entry written, the new segment bound, the old one released. -/
def Obligations.PutsEntries : Prop :=
  ∀ (s : State) (p : Port) (ch index : Byte) (arg : EntryArg), s.ProtocolLaw → s.Listening p →
    ∃ t, exec (.putEntry p ch index arg) s = .next t.settleCancelled
      ∧ PutEntryRule (s.took (.putEntry p ch index arg)) t p ch index arg

/-- TRIM-LIST: its checks in order, the list cut, the entries beyond released in ascending order. -/
def Obligations.TrimsLists : Prop :=
  ∀ (s : State) (p : Port) (ch newLength : Byte), s.ProtocolLaw → s.Listening p →
    ∃ t, exec (.trimList p ch newLength) s = .next t.settleCancelled
      ∧ TrimRule (s.took (.trimList p ch newLength)) t p ch newLength

/-- An entry releases its segment; releases are made one at a time in list order. -/
def Obligations.EntriesRelease : Prop :=
  (∀ (s : State) (i : SegId), ReleaseRule s (s.releaseSegment i) i)
    ∧ (∀ (s : State) (e : Entry) (l : List Entry),
        (s.releaseAll (e :: l)).1 = ((s.releaseSegment e.seg).releaseAll l).1
          ∧ (s.releaseAll (e :: l)).2 =
              (if (s.seg e.seg).state = .doomed ∧ (s.seg e.seg).refs ≤ 1 then [e.seg] else [])
                ++ ((s.releaseSegment e.seg).releaseAll l).2)
    ∧ ∀ s : State, s.releaseAll [] = (s, [])

/-- The successor of an entry, the direction of a pass and the stored index of a play-order index. -/
def Obligations.ListsWalked : Prop :=
  ∀ (l : List Entry) (j : EntryIx) (e : Entry), l.length ≤ 64 → l[j.val]? = some e →
    (∀ x, e.next = some x → successor l j = some x)
      ∧ (e.next = none → j.val + 1 < l.length → ∃ x, successor l j = some x ∧ x.val = j.val + 1)
      ∧ (e.next = none → j.val + 1 = l.length → successor l j = none)
      ∧ (∀ pass : Half, e.reversed pass = match e.dir with
          | .forward => false
          | .reverse => true
          | .pingpong => decide (pass.toNat % 2 = 1))
      ∧ (∀ L q, q < L → storedIndex false L q = q ∧ storedIndex true L q = L - 1 - q)

/-- CLAIM deals with each channel of its mask by the table of R151; RELEASE frees those the port holds. -/
def Obligations.ClaimsAndReleases : Prop :=
  (∀ (s : State) (p : Port) (mask : Byte) (yieldable take : Bool), s.Listening p →
      ∃ t, exec (.claim p mask yieldable take) s = .next t
        ∧ ClaimRule (s.took (.claim p mask yieldable take)) t p mask yieldable take)
    ∧ (∀ (s : State) (p : Port) (mask : Byte), s.Listening p →
      ∃ t, exec (.release p mask) s = .next t ∧ ReleaseCommandRule (s.took (.release p mask)) t p mask)

/-- A changing command on a channel its port does not control is refused and changes nothing. -/
def Obligations.OnlyTheControllerChanges : Prop :=
  ∀ (s : State) (i : Instr) (p : Port) (b : Byte), s.Listening p →
    (changes i = some (p, b) ∨ changesAll i = some (p, b)) →
    (∃ c : ChanId, (s.claimOf c).controller ≠ some p
      ∧ (changes i = some (p, b) ∧ b.toNat = c.val ∨ changesAll i = some (p, b) ∧ b.getLsbD c.val = true)) →
    ∃ t st payload code, exec i s = .next t ∧ OnlyAnswered (s.took i) t p code st payload
      ∧ (st = .notController ∨ st = .badArgument)

/-! ### Parameters and markers -/

/-- SET-STATIC: its checks in order, every given parameter written at its nearest bound. -/
def Obligations.SetsStatics : Prop :=
  ∀ (s : State) (p : Port) (ch : Byte) (a : StaticArgs), s.Listening p →
    ∃ t, exec (.setStatic p ch a) s = .next t ∧ StaticRule (s.took (.setStatic p ch a)) t p ch a

/-- SET-LIVE: its checks in order, values written at once outside play and staged in play. -/
def Obligations.SetsLives : Prop :=
  ∀ (s : State) (p : Port) (ch : Byte) (point : Option Byte) (a : LiveArgs), s.Listening p →
    ∃ t, exec (.setLive p ch point a) s = .next t ∧ LiveRule (s.took (.setLive p ch point a)) t p ch point a

/-- APPLY-GROUP sets group requests, applied at one tick on equal dividers; a record applied overwrites the live
parameters. -/
def Obligations.RecordsApplied : Prop :=
  (∀ (s : State) (p : Port) (mask : Byte), s.Listening p →
      ∃ t, exec (.applyGroup p mask) s = .next t ∧ GroupRule (s.took (.applyGroup p mask)) t p mask)
    ∧ (∀ w : Work,
      (w.ch.staged.isEmpty = true → w.applyStaged = w)
        ∧ (w.ch.staged.isEmpty = false →
            w.applyStaged = { w with
              ch := { w.ch with
                live := ⟨w.ch.staged.gain.getD w.ch.live.gain, w.ch.staged.offset.getD w.ch.live.offset,
                  w.ch.staged.step.getD w.ch.live.step, w.ch.staged.th1.getD w.ch.live.th1,
                  w.ch.staged.th2.getD w.ch.live.th2⟩
                staged := ⟨none, none, none, none, none, none, false⟩ }
              raised := w.raised ++ [.applied] })
        ∧ w.applyAtPass = (if w.ch.staged.point = some .pass then w.applyStaged else w)
        ∧ w.applyAtEntry =
            (if w.ch.staged.point = some .pass ∨ w.ch.staged.point = some .entry then w.applyStaged else w))
    ∧ ∀ (s : State) (c d : ChanId), s.tickOf c = .due → s.tickOf d = .due →
      (s.chan d).stat.divider = (s.chan c).stat.divider → (s.chan d).state.playing = true →
      (s.chan d).staged.isEmpty = false → (s.chan d).staged.group = true →
        ∃ t, exec (.outputTick c) s = .next t ∧ t.tickOf d ≠ .due ∧ (t.chan d).staged.isEmpty = true
          ∧ (t.chan d).live = (applied (s.chan d) true).1.live

/-- SET-MARKER: its four checks in order, every given field written at its nearest bound. -/
def Obligations.SetsMarkers : Prop :=
  ∀ (s : State) (p : Port) (ch unit : Byte) (a : MarkerArgs), s.Listening p →
    ∃ t, exec (.setMarker p ch unit a) s = .next t ∧ MarkerRule (s.took (.setMarker p ch unit a)) t p ch unit a

/-! ### Playback commands -/

/-- ARM: its checks in order with the failing check and entry reported, or the channel ARMING from entry 0. -/
def Obligations.Arms : Prop :=
  ∀ (s : State) (p : Port) (ch : Byte), s.Listening p → (∀ c, (s.chan c).list.length ≤ 64) →
    ∃ t, ArmRule (s.took (.arm p ch)) t p ch
      ∧ exec (.arm p ch) s = .next (if (t.port p).unread.map Response.status = some .ok then t.arbitrate else t)

/-- DISARM returns ARMING and ARMED to IDLE; CLEAR-FAULT returns HALTED to IDLE at the idle level. -/
def Obligations.DisarmsAndClears : Prop :=
  ∀ (s : State) (p : Port) (ch : Byte), s.Listening p →
    (∃ t, exec (.disarm p ch) s = .next t ∧ DisarmRule (s.took (.disarm p ch)) t p ch)
      ∧ ∃ t, exec (.clearFault p ch) s = .next t ∧ ClearFaultRule (s.took (.clearFault p ch)) t p ch

/-- START: its three checks in order, then start-pending on each ARMING or ARMED channel of the mask. -/
def Obligations.Starts : Prop :=
  ∀ (s : State) (p : Port) (mask : Byte), s.Listening p →
    ∃ t, exec (.start p mask) s = .next t ∧ StartRule (s.took (.start p mask)) t p mask

/-- STOP: its checks in order, then each channel of the mask by its state and its present stop point. -/
def Obligations.Stops : Prop :=
  ∀ (s : State) (p : Port) (mask mode : Byte), s.Listening p →
    ∃ t, exec (.stop p mask mode) s = .next t ∧ StopRule (s.took (.stop p mask mode)) t p mask mode

/-- JUMP: its checks in order, the target taken at once in WAITING or stored, and the Fetcher redirected. -/
def Obligations.Jumps : Prop :=
  ∀ (s : State) (p : Port) (ch target : Byte), s.Listening p →
    ∃ t, JumpRule (s.took (.jump p ch target)) t p ch target
      ∧ exec (.jump p ch target) s = .next (if (t.port p).unread.map Response.status = some .ok then t.arbitrate else t)

/-! ### Ticks -/

/-- Interpolation, gain, sum and saturation are the exact formulas, with their bounds. -/
def Obligations.SampleArithmetic : Prop :=
  (∀ (a b : Sample) (f : Nat), f < 65536 →
      interpolate .linear a.toInt b.toInt f = a.toInt + ((b.toInt - a.toInt) * f + 32768) / 65536
        ∧ interpolate .hold a.toInt b.toInt f = a.toInt
        ∧ min a.toInt b.toInt ≤ interpolate .linear a.toInt b.toInt f
        ∧ interpolate .linear a.toInt b.toInt f ≤ max a.toInt b.toInt
        ∧ interpolate .linear a.toInt b.toInt 0 = a.toInt)
    ∧ (∀ r g : Sample, scale r.toInt g.toInt = (r.toInt * g.toInt + 8192) / 16384
      ∧ -65534 ≤ scale r.toInt g.toInt ∧ scale r.toInt g.toInt ≤ 65536
      ∧ (g.toInt = 16384 → scale r.toInt g.toInt = r.toInt) ∧ (g.toInt = 0 → scale r.toInt g.toInt = 0))
    ∧ (∀ v : Int, (-32768 ≤ v → v ≤ 32767 → saturate v = v) ∧ (32767 < v → saturate v = 32767)
      ∧ (v < -32768 → saturate v = -32768)
      ∧ ∀ g o h : Int, sumWith .alone g o h = g + o ∧ sumWith .addPartner g o h = g + o + h)

/-- An output tick places its word, advances, stalls, stops, halts or ends a pass; STARVED is such a tick. -/
def Obligations.OutputTicks : Prop :=
  (∀ (s : State) (c : ChanId), s.tickOf c = .due →
      exec (.outputTick c) s
          = .next (((List.finRange 8).filter fun d =>
              decide (d ≠ c) && decide (s.tickOf d = .due)
                && decide ((s.chan d).stat.divider = (s.chan c).stat.divider)).foldl State.tickOne (s.tickOne c))
        ∧ ∀ d, d ≠ c → s.tickOf d = .due →
            (s.tickOne c).tickOf d = .due ∧ (s.tickOne c).contribution d = s.contribution d)
    ∧ (∀ (s : State) (c : ChanId), s.tickOf c = .due → ∃ v, s.tickOne c = v.arbitrate ∧ TickRule s v c)
    ∧ (∀ (s : State) (c : ChanId), s.tickOf c = .due → (s.work c).beginTick.2 = .play →
      (let k := (s.work c).beginTick.1.ch
       ({ k with fifo := dropBelow (k.pos / 65536) k.fifo }).fetchPair (lengthOf s.segs k k.entry) = none
         ∧ k.underrun = false ∧ 2 ≤ k.consec) →
      ∃ t, exec (.starved c) s = .next t ∧ (t.chan c).state = .halted ∧ exec (.outputTick c) s = .next t)

/-- An output tick changes its channel and those that tick with it, event sets, line events, the tick record and
grants only. -/
def Obligations.TicksTouchTheirChannels : Prop :=
  ∀ (s t : State) (c : ChanId), s.tickOf c = .due →
    exec (.outputTick c) s = .next t →
    (∀ d, d ≠ c → (s.tickOf d = .due → (s.chan d).stat.divider ≠ (s.chan c).stat.divider) →
        { t.chan d with cursor := (s.chan d).cursor, target := (s.chan d).target } = s.chan d)
      ∧ (∀ d, d ≠ c → (s.tickOf d = .due → (s.chan d).stat.divider ≠ (s.chan c).stat.divider) → t.tickOf d = s.tickOf d)
      ∧ (∀ p, { t.port p with events := (s.port p).events } = s.port p)
      ∧ (∀ d, (t.chan d).list = (s.chan d).list ∧ (t.chan d).stat = (s.chan d).stat)
      ∧ { t with
            chans := s.chans, ports := s.ports, ticks := s.ticks, burst := s.burst, syncEvents := s.syncEvents,
            arb := s.arb } = s

/-- What comes first in a tick: records applied, the start of an ARMED channel, the end of a wait. -/
def Obligations.TicksBegin : Prop :=
  ∀ w : Work, BeginRule w w.beginTick.1 w.beginTick.2

/-- What follows a pass end is the first case of R69 that applies, with the carry. -/
def Obligations.PassesEnd : Prop :=
  ∀ (w : Work) (c : ChanId) (carry : Nat),
    PassRule c w (w.afterPass c carry) carry

/-- The two samples of a tick are the head items of its pass; the partner sees g, or 0, at a common tick. -/
def Obligations.TickInputs : Prop :=
  (∀ (k : Chan) (L : Nat) (a b : Sample), k.fetchPair L = some (a, b) ↔
      ∃ it r, k.fifo = it :: r ∧ it.entry = k.entry ∧ it.pass = k.pass ∧ it.index = k.pos / 65536 ∧ it.value = a
        ∧ if k.stat.interp = .linear ∧ k.pos / 65536 + 1 < L then
            ∃ nx r', r = nx :: r' ∧ nx.entry = k.entry ∧ nx.pass = k.pass ∧ nx.index = k.pos / 65536 + 1 ∧ nx.value = b
          else b = a)
    ∧ (∀ (i : Nat) (l : List Item), ∃ run, l = run ++ dropBelow i l
        ∧ (∀ x ∈ run, x.index < i) ∧ (∀ x ∈ run.dropLast, x.last = false)
        ∧ ((∃ x, run.getLast? = some x ∧ x.last = true) ∨ ∀ y, (dropBelow i l).head? = some y → i ≤ y.index))
    ∧ (∀ (s : State) (c : ChanId),
      (s.tickOf c = .noTick → s.contribution c = 0)
        ∧ (∀ h, s.tickOf c = .done h → s.contribution c = h)
        ∧ (s.tickOf c = .due →
            s.contribution c =
              if (s.work c).beginTick.2 = .play then
                let k := (s.work c).beginTick.1.ch
                match ({ k with fifo := dropBelow (k.pos / 65536) k.fifo }).fetchPair (lengthOf s.segs k k.entry) with
                | some (a, b) => scale (interpolate k.stat.interp a.toInt b.toInt (k.pos % 65536)) k.live.gain.toInt
                | none => k.scaled
              else 0))

/-! ### The clock -/

/-- When the clock is judged lost every playing channel halts and every other one is put to its level. -/
def Obligations.ClockLoss : Prop :=
  ∀ s : State, s.monitor.clock = .present →
    ∃ u t, exec .clockLost s = .next t ∧ ClockLostRule s.finishEdge u ∧ LinesDelivered s.finishEdge u t

/-- CLOCK-RESTORED, edges of SCLK and the periods of REFCLK that decide between PRESENT and LOST. -/
def Obligations.ClockIsJudged : Prop :=
  (∀ s : State, s.monitor.clock = .lost →
      (∃ t, exec .clockRestored s = .next t ∧ ClockBackRule s t)
        ∧ ∃ t, exec .runLengthReset s = .next t ∧ t.monitor = ⟨.lost, 0, s.monitor.align, 250, false⟩
            ∧ { t with monitor := s.monitor } = s)
    ∧ (∀ s : State, ∃ t, exec .sclkRisingEdge s = .next t ∧ EdgeRule s.finishEdge t)
    ∧ (∀ s : State, s.pending = [] →
      let m := s.monitor
      (m.clock = .present → 250 ≤ m.sinceEdge + 1 → step s = exec .clockLost s)
        ∧ (m.clock = .present → m.sinceEdge + 1 < 250 →
            step s = .next { s with monitor := { m with sinceEdge := m.sinceEdge + 1 } })
        ∧ (m.clock = .lost → 250 ≤ m.sinceEdge + 1 → step s = exec .runLengthReset s)
        ∧ (m.clock = .lost → m.sinceEdge + 1 < 250 → m.sclkRuns = true →
            if 50000 ≤ m.runLength + 1 then
              step s = exec .clockRestored { s with monitor := { m with sinceEdge := m.sinceEdge + 1 } }
            else step s = .next { s with
              monitor := { m with sinceEdge := m.sinceEdge + 1, runLength := m.runLength + 1 } })
        ∧ (m.clock = .lost → m.sinceEdge + 1 < 250 → m.sclkRuns = false →
            step s = .next { s with monitor := { m with sinceEdge := m.sinceEdge + 1 } }))

/-! ### Triggers, sync lines, markers -/

/-- FIRE causes one trigger event of the port's source, which acts on the subscriptions that name it. -/
def Obligations.Fires : Prop :=
  (∀ (s : State) (p : Port), s.Listening p →
      ∃ t, exec (.fire p) s = .next t ∧ FireRule (s.took (.fire p)) t p)
    ∧ (∀ (s : State) (src : Source), TriggerRule s (s.trigger src) none src)
    ∧ (∀ w : Work,
      (∀ deaf, ∃ o, StartEventRule w.ch (w.startEvent deaf).ch o deaf
          ∧ (w.startEvent deaf).raised = w.raised ++ if o then [.triggerOverrun] else [])
        ∧ (∃ o, AdvanceEventRule w.ch w.advanceEvent.ch o
          ∧ w.advanceEvent.raised = w.raised ++ if o then [.triggerOverrun] else [])
        ∧ ∃ o, UpdateEventRule w.ch w.updateEvent.ch o
          ∧ w.updateEvent.raised = w.raised ++ if o then [.triggerOverrun] else [])

/-- Judged level changes of pins and changes of sync lines trigger as their edge modes say. -/
def Obligations.EdgesTrigger : Prop :=
  (∀ (s : State) (n : Fin 4) (level : Bool), s.resetHeld = false →
      (∃ t, exec (.judgedLevelChange n level) s = .next t ∧ PinRule s t n level)
        ∧ ((s.modes.get (pinIndex n)).counts level = true → s.judged.get n ≠ level →
            ∃ t, exec (.trgEdge n level) s = .next t
              ∧ TriggerRule { s with judged := s.judged.set n level } t none (.trg n)))
    ∧ (∀ (s : State) (l : Fin 4) (e : SyncEvent), s.syncEvents.find? (fun x => decide (x.line = l)) = some e →
      ∃ t, exec (.syncLineEdge l) s = .next t
        ∧ TriggerRule { s.finishTicks with syncEvents := s.finishTicks.syncEvents.erase e } t (some e.channel) (.syn l)
        ∧ (t.chan e.channel).startPending = (s.finishTicks.chan e.channel).startPending
        ∧ (t.chan e.channel).startLatch = (s.finishTicks.chan e.channel).startLatch
        ∧ (∀ c, (t.chan c).mk1 = (s.finishTicks.chan c).mk1 ∧ (t.chan c).mk2 = (s.finishTicks.chan c).mk2)
        ∧ ((∀ c, s.tickOf c ≠ .due) → s.finishTicks = s))
    ∧ (∀ (s : State) (c : ChanId), s.tickOf c = .due →
      ∃ w1 w2, TickParts s c w1 w2
        ∧ (s.tickOne c).syncEvents = s.syncEvents ++ lineEvents c s (s.setChan c w1.ch)
            ++ lineEvents c (s.setChan c w1.ch) (s.setChan c w2.ch))
    ∧ (∀ s : State,
      (∀ l, s.drivers.get l = none → s.lineLevel l = false)
        ∧ (∀ l c u, s.drivers.get l = some (c, u) → s.lineLevel l = ((s.chan c).unit u).active)
        ∧ (∀ e : SyncEvent, TriggerRule s (s.reach e) (some e.channel) (.syn e.line))
        ∧ s.finishEdge = s.finishTicks.syncEvents.foldl State.reach { s.finishTicks with syncEvents := [] }
        ∧ s.finishTicks = (List.finRange 8).foldl (fun t c => if t.tickOf c = .due then t.tickOne c else t) s)
    ∧ ∀ level : Bool,
      EdgeMode.off.counts level = false ∧ EdgeMode.rising.counts level = level ∧ EdgeMode.falling.counts level = !level
        ∧ EdgeMode.both.counts level = true

/-- SET-SOURCE-EDGE: refused, reported, or the mode written with SHARED-CHANGED to the other port. -/
def Obligations.SetsEdgeModes : Prop :=
  ∀ (s : State) (p : Port) (source : Byte) (mode : Option Byte), s.Listening p →
    ∃ t, exec (.setSourceEdge p source mode) s = .next t
      ∧ EdgeModeRule (s.took (.setSourceEdge p source mode)) t p source mode

/-- SET-SYNC-DRIVER: refused, reported, or the driver written with its level change judged at once. -/
def Obligations.SetsDrivers : Prop :=
  ∀ (s : State) (p : Port) (line : Byte) (driver : Option DriverArg), s.Listening p →
    ∃ t, exec (.setSyncDriver p line driver) s = .next t
      ∧ DriverRule (s.took (.setSyncDriver p line driver)) t p line driver

/-- Markers count their pulses, compare with hysteresis, and drive their pins by polarity. -/
def Obligations.MarkersCount : Prop :=
  (∀ m : Marker, m.mode = .entry ∨ m.mode = .pass →
      (0 < m.remaining → m.countTick = { m with active := true, remaining := m.remaining - 1 })
        ∧ (m.remaining = 0 → m.countTick = { m with active := false }))
    ∧ (∀ m : Marker, m.mode = .off ∨ m.mode = .level → m.countTick = m)
    ∧ (∀ (m : Marker) (out T : Int), m.mode ≠ .level → m.compareLevel out T = m)
    ∧ (∀ (m : Marker) (out T : Int), m.mode = .level →
        (T ≤ out → m.compareLevel out T = { m with active := true })
          ∧ (out < T - m.hyst → m.compareLevel out T = { m with active := false })
          ∧ (T - m.hyst ≤ out → out < T → m.compareLevel out T = m))
    ∧ (∀ m : Marker, m.pin = (if m.polarity = .inverted then !m.active else m.active))
    ∧ (∀ (k : Chan) (u : MkUnit),
      let m := k.unit u
      let restarts := k.state = .waiting ∧ k.startRequest = true ∧ k.stop ≠ some .immediate
        ∧ (k.entryAt k.entry).any (fun e => if u = .mk1 then e.mk1 else e.mk2) = true
      k.pulseEnds u = true ↔
        (k.state = .running ∨ k.state = .waiting ∨ k.state = .stopping) ∧ (m.mode = .entry ∨ m.mode = .pass)
          ∧ m.active = true ∧ m.remaining = 0 ∧ ¬ restarts)
    ∧ (∀ (s : State) (c : ChanId) (u : MkUnit), s.tickOf c = .due → (s.chan c).pulseEnds u = true →
        ∃ t, exec (.markerPulseEnd c u) s = .next t
          ∧ t.chan c = (s.chan c).setUnit u { (s.chan c).unit u with active := false } ∧ OtherChans s t c
          ∧ t.syncEvents = s.syncEvents ++ lineEvents c s t
          ∧ { t with chans := s.chans, syncEvents := s.syncEvents } = s)

/-! ### Events -/

/-- Causes raised, TAKE-EVENTS and SET-EVENT-ENABLE, with ATTN. -/
def Obligations.EventSets : Prop :=
  (∀ (l : List EventEntry) (src : EventSource) (k : Kind) (d : Detail), l.Pairwise (fun e f => e.key < f.key) →
      RaiseRule l (raiseIn l src k d) src k d)
    ∧ (∀ (s : State) (p : Port), s.Listening p →
      (∃ t, exec (.takeEvents p) s = .next t ∧ TakeRule (s.took (.takeEvents p)) t p)
        ∧ ∀ kinds : BitVec 15, ∃ t, exec (.setEventEnable p kinds) s = .next t
            ∧ (t.port p).enable = kinds
            ∧ Answered s t p Code.setEventEnable .ok
                (putHalf ((s.port p).enable.setWidth 16) ++ putHalf (kinds.setWidth 16))
            ∧ (t.port p).events = (s.port p).events
            ∧ (t.port p).lastOut = ((s.took (.setEventEnable p kinds)).port p).lastOut
            ∧ (t.port p).prstHeld = (s.port p).prstHeld ∧ t.port p.other = s.port p.other
            ∧ { t with ports := s.ports } = s
            ∧ (attn t.resetHeld (t.port p) = true ↔
                ∃ e ∈ (s.port p).events, kinds.getLsbD (Table.kind e.kind) = true))
    ∧ (∀ e : EventEntry, e.key = 16 * Table.eventSource e.source + Table.kind e.kind)
    ∧ ∀ (s : State) (p : Port), attn s.resetHeld (s.port p) = true ↔
      s.resetHeld = false ∧ (s.port p).prstHeld = false
        ∧ ∃ e ∈ (s.port p).events, (s.port p).enable.getLsbD (Table.kind e.kind) = true

/-! ### The arbiter -/

/-- Grants go by the four tiers and the rotation; bursts are sized within a page and cursors move past them. -/
def Obligations.ArbiterDecides : Prop :=
  (∀ s : State,
      (∀ c, s.First s.urgent c → s.chosen = some (.fetcher c))
        ∧ ((∀ c, s.urgent c = false) → ∀ p, s.FirstPort s.aged p → s.chosen = some (.loadUnit p))
        ∧ ((∀ c, s.urgent c = false) → (∀ p, s.aged p = false) →
            ∀ c, s.First s.fetchRequest c → s.chosen = some (.fetcher c))
        ∧ ((∀ c, s.fetchRequest c = false) → (∀ p, s.aged p = false) →
            ∀ p, s.FirstPort s.portRequest p → s.chosen = some (.loadUnit p))
        ∧ (s.anyRequest = false → s.chosen = none)
        ∧ (∀ b, s.burst = some b → s.arbitrate = s)
        ∧ (s.burst = none → ∀ r, s.chosen = some r → GrantedRule s s.arbitrate r ∧ InFlightRule s s.arbitrate r)
        ∧ (∀ c, RequestRule s c) ∧ ∀ p, PortRequestRule s p)
    ∧ ((∀ (c : ChanId) (r : SegRec) (e : Entry) (cur : Cursor) (n L : Nat), r.length = some L → cur.index < L → n < 64 →
        let b := fetchBurst c r e cur n
        let k := if e.reversed cur.pass then L - 1 - cur.index else cur.index
        b.requester = .fetcher c ∧ b.write = false ∧ b.keep = true ∧ b.page = r.pages.getD (k / 256) 0
          ∧ b.first = k % 256 ∧ b.ascending = !e.reversed cur.pass
          ∧ 1 ≤ b.count ∧ b.count ≤ 32 ∧ b.count ≤ L - cur.index ∧ b.count ≤ 64 - n ∧ b.inPage
          ∧ (b.count = 32 ∨ b.count = L - cur.index ∨ b.count = 64 - n
              ∨ b.count = if e.reversed cur.pass then k % 256 + 1 else 256 - k % 256))
      ∧ (∀ (p : Port) (r : SegRec) (u : LoadUnit), u.buffer ≠ [] →
          let b := drainBurst p r u
          b.requester = .loadUnit p ∧ b.write = true ∧ b.page = r.pages.getD (u.wpos / 256) 0 ∧ b.first = u.wpos % 256
            ∧ b.ascending = true ∧ b.count = min 32 (min u.buffer.length (256 - u.wpos % 256)) ∧ 1 ≤ b.count
            ∧ b.values = u.buffer.take b.count ∧ b.inPage)
      ∧ (∀ (p : Port) (r : SegRec) (rb : Readback), 0 < rb.remaining →
          let b := readBurst p r rb
          b.requester = .loadUnit p ∧ b.write = false ∧ b.page = r.pages.getD (rb.next / 256) 0
            ∧ b.first = rb.next % 256 ∧ b.ascending = true
            ∧ b.count = min 32 (min rb.remaining (256 - rb.next % 256)) ∧ 1 ≤ b.count ∧ b.inPage))

/-! ### What changes what -/

/-- Only burst completions and a device reset change slots; lists, settings, claims, modes, drivers by their own
commands. -/
def Obligations.WhatChangesWhat : Prop :=
  (∀ (s t : State) (i : Instr), exec i s = .next t → i ≠ .drainBurstComplete → i ≠ .deviceReset →
      (∀ us, i ≠ .fetchBurstComplete us) → (∀ us, i ≠ .readbackBurstComplete us) → ∀ a, t.slot a = s.slot a)
    ∧ (∀ (s t : State) (i : Instr), exec i s = .next t → i ≠ .deviceReset →
      ((∀ p ch x e, i ≠ .putEntry p ch x e) → (∀ p ch m, i ≠ .trimList p ch m) →
          ∀ c, (t.chan c).list = (s.chan c).list)
        ∧ (∀ c, (s.chan c).state.active = true → (t.chan c).list = (s.chan c).list)
        ∧ ((∀ p ch a, i ≠ .setStatic p ch a) → ∀ c, (t.chan c).stat = (s.chan c).stat)
        ∧ ((∀ p m y k, i ≠ .claim p m y k) → (∀ p m, i ≠ .release p m) → (∀ p, i ≠ .portReset p) →
            (∀ p, i ≠ .resetPort p) → ∀ c, t.claimOf c = s.claimOf c)
        ∧ ((∀ p x m, i ≠ .setSourceEdge p x m) → t.modes = s.modes)
        ∧ ((∀ p l d, i ≠ .setSyncDriver p l d) → t.drivers = s.drivers)
        ∧ ((∀ p k, i ≠ .setEventEnable p k) → (∀ p, i ≠ .portReset p) → (∀ p, i ≠ .resetPort p) →
            ∀ p, (t.port p).enable = (s.port p).enable))

/-! ### Invariants -/

/-- Every law holds in the state right after reset. -/
def Obligations.LawsHoldAtReset : Prop :=
  State.reset.MemoryLaw ∧ State.reset.PageLaw ∧ State.reset.LoadLaw ∧ State.reset.ReferenceLaw
    ∧ State.reset.CountLaw ∧ State.reset.PageCountLaw ∧ State.reset.WalkLaw ∧ State.reset.FifoLaw ∧ State.reset.KeptLaw
    ∧ State.reset.PlayOrderLaw
    ∧ State.reset.ProtocolLaw ∧ State.reset.ClockLaw ∧ State.reset.ArbiterLaw
    ∧ (∀ p, (State.reset.port p).EventLaw)
    ∧ ∀ c, (State.reset.chan c).CourseLaw ∧ (State.reset.chan c).RecordLaw ∧ (State.reset.chan c).FlushedLaw
        ∧ (State.reset.chan c).UnderrunLaw ∧ (State.reset.chan c).LaneLaw ∧ (State.reset.chan c).MarkerLaw
        ∧ (State.reset.chan c).RangeLaw

/-- Every step keeps the memory canonical, within the store, and the burst in flight within a page. -/
def Obligations.MemoryLawKept : Prop := ∀ s t : State, s.MemoryLaw → step s = .next t → t.MemoryLaw

/-- Every step keeps the page conservation law. -/
def Obligations.PageLawKept : Prop := ∀ s t : State, s.PageLaw → step s = .next t → t.PageLaw

/-- Every step keeps the open-load law and the port protocol law, and with them R18 and R20. -/
def Obligations.LoadAndProtocolLawsKept : Prop :=
  ∀ s t : State, s.LoadLaw → s.ProtocolLaw → step s = .next t →
    t.LoadLaw ∧ t.ProtocolLaw ∧ (s.CountLaw → s.PageCountLaw → t.CountLaw ∧ t.PageCountLaw)

/-- Every step keeps each reference count equal to the number of entries that name the segment. -/
def Obligations.ReferenceLawKept : Prop :=
  ∀ s t : State, s.LoadLaw → s.ReferenceLaw → step s = .next t → t.ReferenceLaw

/-- Every step keeps which fields are set in which channel state, flushes, records, counts and the position law. -/
def Obligations.ChannelLawsKept : Prop :=
  ∀ s t : State, s.KeptLaw →
    (∀ c, (s.chan c).CourseLaw ∧ (s.chan c).RecordLaw ∧ (s.chan c).FlushedLaw ∧ (s.chan c).UnderrunLaw) →
    step s = .next t →
    t.KeptLaw ∧ (∀ c, (t.chan c).CourseLaw ∧ (t.chan c).RecordLaw ∧ (t.chan c).FlushedLaw ∧ (t.chan c).UnderrunLaw)
      ∧ (s.LoadLaw → s.ReferenceLaw → s.PageCountLaw → (∀ c, (s.chan c).RangeLaw) → s.WalkLaw → t.WalkLaw)

/-- Every step keeps the items of each FIFO in play order of the walk, ahead of the pass playback is in. -/
def Obligations.PlayOrderKept : Prop :=
  ∀ s t : State, s.LoadLaw → s.ReferenceLaw → s.PageCountLaw → s.KeptLaw → s.WalkLaw →
    (∀ c, (s.chan c).CourseLaw ∧ (s.chan c).FlushedLaw ∧ (s.chan c).RangeLaw) →
    s.PlayOrderLaw → step s = .next t → t.PlayOrderLaw

/-- Every step keeps the lane-word law, the bound of 64 on each FIFO, the ranges, and markers silent outside play. -/
def Obligations.LaneFifoMarkerAndRangeLawsKept : Prop :=
  ∀ s t : State, step s = .next t →
    ((∀ c, (s.chan c).LaneLaw) → ∀ c, (t.chan c).LaneLaw) ∧ (s.FifoLaw → t.FifoLaw)
      ∧ ((∀ c, (s.chan c).RangeLaw ∧ (s.chan c).MarkerLaw) → ∀ c, (t.chan c).RangeLaw ∧ (t.chan c).MarkerLaw)

/-- Every step keeps the event-set law, the clock law and the bound on pass-over counts. -/
def Obligations.EventClockAndArbiterLawsKept : Prop :=
  ∀ s t : State, step s = .next t →
    ((∀ p, (s.port p).EventLaw) → ∀ p, (t.port p).EventLaw) ∧ (s.ClockLaw → t.ClockLaw)
      ∧ (s.ArbiterLaw → t.ArbiterLaw)
end

