-- ==== Sys2Proof/Laws/State.lean ====
section
/-! SUPPORT. Projections of the updates of `Machine/Ops.lean`: one lemma per field or accessor per update. -/

namespace Sys2Proof.Machine

variable (s : State)

/-! ### Fields that an update does not touch -/

@[simp] theorem State.setPort_pending (p : Port) (r : PortRec) : (s.setPort p r).pending = s.pending := rfl
@[simp] theorem State.setPort_resetHeld (p : Port) (r : PortRec) : (s.setPort p r).resetHeld = s.resetHeld := rfl
@[simp] theorem State.setPort_resets (p : Port) (r : PortRec) : (s.setPort p r).resets = s.resets := rfl
@[simp] theorem State.setPort_mem (p : Port) (r : PortRec) : (s.setPort p r).mem = s.mem := rfl
@[simp] theorem State.setPort_burst (p : Port) (r : PortRec) : (s.setPort p r).burst = s.burst := rfl
@[simp] theorem State.setPort_pages (p : Port) (r : PortRec) : (s.setPort p r).pages = s.pages := rfl
@[simp] theorem State.setPort_freeList (p : Port) (r : PortRec) : (s.setPort p r).freeList = s.freeList := rfl
@[simp] theorem State.setPort_retired (p : Port) (r : PortRec) : (s.setPort p r).retired = s.retired := rfl
@[simp] theorem State.setPort_segs (p : Port) (r : PortRec) : (s.setPort p r).segs = s.segs := rfl
@[simp] theorem State.setPort_loads (p : Port) (r : PortRec) : (s.setPort p r).loads = s.loads := rfl
@[simp] theorem State.setPort_chans (p : Port) (r : PortRec) : (s.setPort p r).chans = s.chans := rfl
@[simp] theorem State.setPort_claims (p : Port) (r : PortRec) : (s.setPort p r).claims = s.claims := rfl
@[simp] theorem State.setPort_monitor (p : Port) (r : PortRec) : (s.setPort p r).monitor = s.monitor := rfl
@[simp] theorem State.setPort_ticks (p : Port) (r : PortRec) : (s.setPort p r).ticks = s.ticks := rfl
@[simp] theorem State.setPort_arb (p : Port) (r : PortRec) : (s.setPort p r).arb = s.arb := rfl
@[simp] theorem State.setPort_judged (p : Port) (r : PortRec) : (s.setPort p r).judged = s.judged := rfl
@[simp] theorem State.setPort_modes (p : Port) (r : PortRec) : (s.setPort p r).modes = s.modes := rfl
@[simp] theorem State.setPort_syncEvents (p : Port) (r : PortRec) : (s.setPort p r).syncEvents = s.syncEvents := rfl
@[simp] theorem State.setPort_drivers (p : Port) (r : PortRec) : (s.setPort p r).drivers = s.drivers := rfl

@[simp] theorem State.setLoad_pending (p : Port) (u : LoadUnit) : (s.setLoad p u).pending = s.pending := rfl
@[simp] theorem State.setLoad_resetHeld (p : Port) (u : LoadUnit) : (s.setLoad p u).resetHeld = s.resetHeld := rfl
@[simp] theorem State.setLoad_resets (p : Port) (u : LoadUnit) : (s.setLoad p u).resets = s.resets := rfl
@[simp] theorem State.setLoad_mem (p : Port) (u : LoadUnit) : (s.setLoad p u).mem = s.mem := rfl
@[simp] theorem State.setLoad_burst (p : Port) (u : LoadUnit) : (s.setLoad p u).burst = s.burst := rfl
@[simp] theorem State.setLoad_pages (p : Port) (u : LoadUnit) : (s.setLoad p u).pages = s.pages := rfl
@[simp] theorem State.setLoad_freeList (p : Port) (u : LoadUnit) : (s.setLoad p u).freeList = s.freeList := rfl
@[simp] theorem State.setLoad_retired (p : Port) (u : LoadUnit) : (s.setLoad p u).retired = s.retired := rfl
@[simp] theorem State.setLoad_segs (p : Port) (u : LoadUnit) : (s.setLoad p u).segs = s.segs := rfl
@[simp] theorem State.setLoad_chans (p : Port) (u : LoadUnit) : (s.setLoad p u).chans = s.chans := rfl
@[simp] theorem State.setLoad_claims (p : Port) (u : LoadUnit) : (s.setLoad p u).claims = s.claims := rfl
@[simp] theorem State.setLoad_monitor (p : Port) (u : LoadUnit) : (s.setLoad p u).monitor = s.monitor := rfl
@[simp] theorem State.setLoad_ticks (p : Port) (u : LoadUnit) : (s.setLoad p u).ticks = s.ticks := rfl
@[simp] theorem State.setLoad_arb (p : Port) (u : LoadUnit) : (s.setLoad p u).arb = s.arb := rfl
@[simp] theorem State.setLoad_judged (p : Port) (u : LoadUnit) : (s.setLoad p u).judged = s.judged := rfl
@[simp] theorem State.setLoad_modes (p : Port) (u : LoadUnit) : (s.setLoad p u).modes = s.modes := rfl
@[simp] theorem State.setLoad_syncEvents (p : Port) (u : LoadUnit) : (s.setLoad p u).syncEvents = s.syncEvents := rfl
@[simp] theorem State.setLoad_drivers (p : Port) (u : LoadUnit) : (s.setLoad p u).drivers = s.drivers := rfl
@[simp] theorem State.setLoad_ports (p : Port) (u : LoadUnit) : (s.setLoad p u).ports = s.ports := rfl

@[simp] theorem State.setChan_pending (c : ChanId) (k : Chan) : (s.setChan c k).pending = s.pending := rfl
@[simp] theorem State.setChan_resetHeld (c : ChanId) (k : Chan) : (s.setChan c k).resetHeld = s.resetHeld := rfl
@[simp] theorem State.setChan_resets (c : ChanId) (k : Chan) : (s.setChan c k).resets = s.resets := rfl
@[simp] theorem State.setChan_mem (c : ChanId) (k : Chan) : (s.setChan c k).mem = s.mem := rfl
@[simp] theorem State.setChan_burst (c : ChanId) (k : Chan) : (s.setChan c k).burst = s.burst := rfl
@[simp] theorem State.setChan_pages (c : ChanId) (k : Chan) : (s.setChan c k).pages = s.pages := rfl
@[simp] theorem State.setChan_freeList (c : ChanId) (k : Chan) : (s.setChan c k).freeList = s.freeList := rfl
@[simp] theorem State.setChan_retired (c : ChanId) (k : Chan) : (s.setChan c k).retired = s.retired := rfl
@[simp] theorem State.setChan_segs (c : ChanId) (k : Chan) : (s.setChan c k).segs = s.segs := rfl
@[simp] theorem State.setChan_loads (c : ChanId) (k : Chan) : (s.setChan c k).loads = s.loads := rfl
@[simp] theorem State.setChan_claims (c : ChanId) (k : Chan) : (s.setChan c k).claims = s.claims := rfl
@[simp] theorem State.setChan_monitor (c : ChanId) (k : Chan) : (s.setChan c k).monitor = s.monitor := rfl
@[simp] theorem State.setChan_ticks (c : ChanId) (k : Chan) : (s.setChan c k).ticks = s.ticks := rfl
@[simp] theorem State.setChan_arb (c : ChanId) (k : Chan) : (s.setChan c k).arb = s.arb := rfl
@[simp] theorem State.setChan_judged (c : ChanId) (k : Chan) : (s.setChan c k).judged = s.judged := rfl
@[simp] theorem State.setChan_modes (c : ChanId) (k : Chan) : (s.setChan c k).modes = s.modes := rfl
@[simp] theorem State.setChan_syncEvents (c : ChanId) (k : Chan) : (s.setChan c k).syncEvents = s.syncEvents := rfl
@[simp] theorem State.setChan_drivers (c : ChanId) (k : Chan) : (s.setChan c k).drivers = s.drivers := rfl
@[simp] theorem State.setChan_ports (c : ChanId) (k : Chan) : (s.setChan c k).ports = s.ports := rfl

@[simp] theorem State.setSeg_pending (i : SegId) (r : SegRec) : (s.setSeg i r).pending = s.pending := rfl
@[simp] theorem State.setSeg_resetHeld (i : SegId) (r : SegRec) : (s.setSeg i r).resetHeld = s.resetHeld := rfl
@[simp] theorem State.setSeg_resets (i : SegId) (r : SegRec) : (s.setSeg i r).resets = s.resets := rfl
@[simp] theorem State.setSeg_mem (i : SegId) (r : SegRec) : (s.setSeg i r).mem = s.mem := rfl
@[simp] theorem State.setSeg_burst (i : SegId) (r : SegRec) : (s.setSeg i r).burst = s.burst := rfl
@[simp] theorem State.setSeg_pages (i : SegId) (r : SegRec) : (s.setSeg i r).pages = s.pages := rfl
@[simp] theorem State.setSeg_freeList (i : SegId) (r : SegRec) : (s.setSeg i r).freeList = s.freeList := rfl
@[simp] theorem State.setSeg_retired (i : SegId) (r : SegRec) : (s.setSeg i r).retired = s.retired := rfl
@[simp] theorem State.setSeg_loads (i : SegId) (r : SegRec) : (s.setSeg i r).loads = s.loads := rfl
@[simp] theorem State.setSeg_chans (i : SegId) (r : SegRec) : (s.setSeg i r).chans = s.chans := rfl
@[simp] theorem State.setSeg_claims (i : SegId) (r : SegRec) : (s.setSeg i r).claims = s.claims := rfl
@[simp] theorem State.setSeg_monitor (i : SegId) (r : SegRec) : (s.setSeg i r).monitor = s.monitor := rfl
@[simp] theorem State.setSeg_ticks (i : SegId) (r : SegRec) : (s.setSeg i r).ticks = s.ticks := rfl
@[simp] theorem State.setSeg_arb (i : SegId) (r : SegRec) : (s.setSeg i r).arb = s.arb := rfl
@[simp] theorem State.setSeg_judged (i : SegId) (r : SegRec) : (s.setSeg i r).judged = s.judged := rfl
@[simp] theorem State.setSeg_modes (i : SegId) (r : SegRec) : (s.setSeg i r).modes = s.modes := rfl
@[simp] theorem State.setSeg_syncEvents (i : SegId) (r : SegRec) : (s.setSeg i r).syncEvents = s.syncEvents := rfl
@[simp] theorem State.setSeg_drivers (i : SegId) (r : SegRec) : (s.setSeg i r).drivers = s.drivers := rfl
@[simp] theorem State.setSeg_ports (i : SegId) (r : SegRec) : (s.setSeg i r).ports = s.ports := rfl

@[simp] theorem State.setPage_pending (n : PageNo) (r : PageRec) : (s.setPage n r).pending = s.pending := rfl
@[simp] theorem State.setPage_resetHeld (n : PageNo) (r : PageRec) : (s.setPage n r).resetHeld = s.resetHeld := rfl
@[simp] theorem State.setPage_resets (n : PageNo) (r : PageRec) : (s.setPage n r).resets = s.resets := rfl
@[simp] theorem State.setPage_mem (n : PageNo) (r : PageRec) : (s.setPage n r).mem = s.mem := rfl
@[simp] theorem State.setPage_burst (n : PageNo) (r : PageRec) : (s.setPage n r).burst = s.burst := rfl
@[simp] theorem State.setPage_freeList (n : PageNo) (r : PageRec) : (s.setPage n r).freeList = s.freeList := rfl
@[simp] theorem State.setPage_retired (n : PageNo) (r : PageRec) : (s.setPage n r).retired = s.retired := rfl
@[simp] theorem State.setPage_segs (n : PageNo) (r : PageRec) : (s.setPage n r).segs = s.segs := rfl
@[simp] theorem State.setPage_loads (n : PageNo) (r : PageRec) : (s.setPage n r).loads = s.loads := rfl
@[simp] theorem State.setPage_chans (n : PageNo) (r : PageRec) : (s.setPage n r).chans = s.chans := rfl
@[simp] theorem State.setPage_claims (n : PageNo) (r : PageRec) : (s.setPage n r).claims = s.claims := rfl
@[simp] theorem State.setPage_monitor (n : PageNo) (r : PageRec) : (s.setPage n r).monitor = s.monitor := rfl
@[simp] theorem State.setPage_ticks (n : PageNo) (r : PageRec) : (s.setPage n r).ticks = s.ticks := rfl
@[simp] theorem State.setPage_arb (n : PageNo) (r : PageRec) : (s.setPage n r).arb = s.arb := rfl
@[simp] theorem State.setPage_judged (n : PageNo) (r : PageRec) : (s.setPage n r).judged = s.judged := rfl
@[simp] theorem State.setPage_modes (n : PageNo) (r : PageRec) : (s.setPage n r).modes = s.modes := rfl
@[simp] theorem State.setPage_syncEvents (n : PageNo) (r : PageRec) : (s.setPage n r).syncEvents = s.syncEvents := rfl
@[simp] theorem State.setPage_drivers (n : PageNo) (r : PageRec) : (s.setPage n r).drivers = s.drivers := rfl
@[simp] theorem State.setPage_ports (n : PageNo) (r : PageRec) : (s.setPage n r).ports = s.ports := rfl

@[simp] theorem State.setClaim_pending (c : ChanId) (r : Claim) : (s.setClaim c r).pending = s.pending := rfl
@[simp] theorem State.setClaim_resetHeld (c : ChanId) (r : Claim) : (s.setClaim c r).resetHeld = s.resetHeld := rfl
@[simp] theorem State.setClaim_resets (c : ChanId) (r : Claim) : (s.setClaim c r).resets = s.resets := rfl
@[simp] theorem State.setClaim_mem (c : ChanId) (r : Claim) : (s.setClaim c r).mem = s.mem := rfl
@[simp] theorem State.setClaim_burst (c : ChanId) (r : Claim) : (s.setClaim c r).burst = s.burst := rfl
@[simp] theorem State.setClaim_pages (c : ChanId) (r : Claim) : (s.setClaim c r).pages = s.pages := rfl
@[simp] theorem State.setClaim_freeList (c : ChanId) (r : Claim) : (s.setClaim c r).freeList = s.freeList := rfl
@[simp] theorem State.setClaim_retired (c : ChanId) (r : Claim) : (s.setClaim c r).retired = s.retired := rfl
@[simp] theorem State.setClaim_segs (c : ChanId) (r : Claim) : (s.setClaim c r).segs = s.segs := rfl
@[simp] theorem State.setClaim_loads (c : ChanId) (r : Claim) : (s.setClaim c r).loads = s.loads := rfl
@[simp] theorem State.setClaim_chans (c : ChanId) (r : Claim) : (s.setClaim c r).chans = s.chans := rfl
@[simp] theorem State.setClaim_monitor (c : ChanId) (r : Claim) : (s.setClaim c r).monitor = s.monitor := rfl
@[simp] theorem State.setClaim_ticks (c : ChanId) (r : Claim) : (s.setClaim c r).ticks = s.ticks := rfl
@[simp] theorem State.setClaim_arb (c : ChanId) (r : Claim) : (s.setClaim c r).arb = s.arb := rfl
@[simp] theorem State.setClaim_judged (c : ChanId) (r : Claim) : (s.setClaim c r).judged = s.judged := rfl
@[simp] theorem State.setClaim_modes (c : ChanId) (r : Claim) : (s.setClaim c r).modes = s.modes := rfl
@[simp] theorem State.setClaim_syncEvents (c : ChanId) (r : Claim) : (s.setClaim c r).syncEvents = s.syncEvents := rfl
@[simp] theorem State.setClaim_drivers (c : ChanId) (r : Claim) : (s.setClaim c r).drivers = s.drivers := rfl
@[simp] theorem State.setClaim_ports (c : ChanId) (r : Claim) : (s.setClaim c r).ports = s.ports := rfl

@[simp] theorem State.setTick_pending (c : ChanId) (t : TickStatus) : (s.setTick c t).pending = s.pending := rfl
@[simp] theorem State.setTick_resetHeld (c : ChanId) (t : TickStatus) : (s.setTick c t).resetHeld = s.resetHeld := rfl
@[simp] theorem State.setTick_resets (c : ChanId) (t : TickStatus) : (s.setTick c t).resets = s.resets := rfl
@[simp] theorem State.setTick_mem (c : ChanId) (t : TickStatus) : (s.setTick c t).mem = s.mem := rfl
@[simp] theorem State.setTick_burst (c : ChanId) (t : TickStatus) : (s.setTick c t).burst = s.burst := rfl
@[simp] theorem State.setTick_pages (c : ChanId) (t : TickStatus) : (s.setTick c t).pages = s.pages := rfl
@[simp] theorem State.setTick_freeList (c : ChanId) (t : TickStatus) : (s.setTick c t).freeList = s.freeList := rfl
@[simp] theorem State.setTick_retired (c : ChanId) (t : TickStatus) : (s.setTick c t).retired = s.retired := rfl
@[simp] theorem State.setTick_segs (c : ChanId) (t : TickStatus) : (s.setTick c t).segs = s.segs := rfl
@[simp] theorem State.setTick_loads (c : ChanId) (t : TickStatus) : (s.setTick c t).loads = s.loads := rfl
@[simp] theorem State.setTick_chans (c : ChanId) (t : TickStatus) : (s.setTick c t).chans = s.chans := rfl
@[simp] theorem State.setTick_claims (c : ChanId) (t : TickStatus) : (s.setTick c t).claims = s.claims := rfl
@[simp] theorem State.setTick_monitor (c : ChanId) (t : TickStatus) : (s.setTick c t).monitor = s.monitor := rfl
@[simp] theorem State.setTick_arb (c : ChanId) (t : TickStatus) : (s.setTick c t).arb = s.arb := rfl
@[simp] theorem State.setTick_judged (c : ChanId) (t : TickStatus) : (s.setTick c t).judged = s.judged := rfl
@[simp] theorem State.setTick_modes (c : ChanId) (t : TickStatus) : (s.setTick c t).modes = s.modes := rfl
@[simp] theorem State.setTick_syncEvents (c : ChanId) (t : TickStatus) : (s.setTick c t).syncEvents = s.syncEvents := rfl
@[simp] theorem State.setTick_drivers (c : ChanId) (t : TickStatus) : (s.setTick c t).drivers = s.drivers := rfl
@[simp] theorem State.setTick_ports (c : ChanId) (t : TickStatus) : (s.setTick c t).ports = s.ports := rfl

@[simp] theorem State.setPassOver_pending (p : Port) (n : Nat) : (s.setPassOver p n).pending = s.pending := rfl
@[simp] theorem State.setPassOver_resetHeld (p : Port) (n : Nat) : (s.setPassOver p n).resetHeld = s.resetHeld := rfl
@[simp] theorem State.setPassOver_resets (p : Port) (n : Nat) : (s.setPassOver p n).resets = s.resets := rfl
@[simp] theorem State.setPassOver_mem (p : Port) (n : Nat) : (s.setPassOver p n).mem = s.mem := rfl
@[simp] theorem State.setPassOver_burst (p : Port) (n : Nat) : (s.setPassOver p n).burst = s.burst := rfl
@[simp] theorem State.setPassOver_pages (p : Port) (n : Nat) : (s.setPassOver p n).pages = s.pages := rfl
@[simp] theorem State.setPassOver_freeList (p : Port) (n : Nat) : (s.setPassOver p n).freeList = s.freeList := rfl
@[simp] theorem State.setPassOver_retired (p : Port) (n : Nat) : (s.setPassOver p n).retired = s.retired := rfl
@[simp] theorem State.setPassOver_segs (p : Port) (n : Nat) : (s.setPassOver p n).segs = s.segs := rfl
@[simp] theorem State.setPassOver_loads (p : Port) (n : Nat) : (s.setPassOver p n).loads = s.loads := rfl
@[simp] theorem State.setPassOver_chans (p : Port) (n : Nat) : (s.setPassOver p n).chans = s.chans := rfl
@[simp] theorem State.setPassOver_claims (p : Port) (n : Nat) : (s.setPassOver p n).claims = s.claims := rfl
@[simp] theorem State.setPassOver_monitor (p : Port) (n : Nat) : (s.setPassOver p n).monitor = s.monitor := rfl
@[simp] theorem State.setPassOver_ticks (p : Port) (n : Nat) : (s.setPassOver p n).ticks = s.ticks := rfl
@[simp] theorem State.setPassOver_judged (p : Port) (n : Nat) : (s.setPassOver p n).judged = s.judged := rfl
@[simp] theorem State.setPassOver_modes (p : Port) (n : Nat) : (s.setPassOver p n).modes = s.modes := rfl
@[simp] theorem State.setPassOver_syncEvents (p : Port) (n : Nat) : (s.setPassOver p n).syncEvents = s.syncEvents := rfl
@[simp] theorem State.setPassOver_drivers (p : Port) (n : Nat) : (s.setPassOver p n).drivers = s.drivers := rfl
@[simp] theorem State.setPassOver_ports (p : Port) (n : Nat) : (s.setPassOver p n).ports = s.ports := rfl

/-! ### Accessors that an update does not touch -/

@[simp] theorem State.setPort_loadUnit (p : Port) (r : PortRec) (q : Port) : (s.setPort p r).loadUnit q = s.loadUnit q := rfl
@[simp] theorem State.setPort_chan (p : Port) (r : PortRec) (d : ChanId) : (s.setPort p r).chan d = s.chan d := rfl
@[simp] theorem State.setPort_seg (p : Port) (r : PortRec) (j : SegId) : (s.setPort p r).seg j = s.seg j := rfl
@[simp] theorem State.setPort_page (p : Port) (r : PortRec) (m : PageNo) : (s.setPort p r).page m = s.page m := rfl
@[simp] theorem State.setPort_claimOf (p : Port) (r : PortRec) (d : ChanId) : (s.setPort p r).claimOf d = s.claimOf d := rfl
@[simp] theorem State.setPort_tickOf (p : Port) (r : PortRec) (d : ChanId) : (s.setPort p r).tickOf d = s.tickOf d := rfl

@[simp] theorem State.setLoad_port (p : Port) (u : LoadUnit) (q : Port) : (s.setLoad p u).port q = s.port q := rfl
@[simp] theorem State.setLoad_chan (p : Port) (u : LoadUnit) (d : ChanId) : (s.setLoad p u).chan d = s.chan d := rfl
@[simp] theorem State.setLoad_seg (p : Port) (u : LoadUnit) (j : SegId) : (s.setLoad p u).seg j = s.seg j := rfl
@[simp] theorem State.setLoad_page (p : Port) (u : LoadUnit) (m : PageNo) : (s.setLoad p u).page m = s.page m := rfl
@[simp] theorem State.setLoad_claimOf (p : Port) (u : LoadUnit) (d : ChanId) : (s.setLoad p u).claimOf d = s.claimOf d := rfl
@[simp] theorem State.setLoad_tickOf (p : Port) (u : LoadUnit) (d : ChanId) : (s.setLoad p u).tickOf d = s.tickOf d := rfl

@[simp] theorem State.setChan_port (c : ChanId) (k : Chan) (q : Port) : (s.setChan c k).port q = s.port q := rfl
@[simp] theorem State.setChan_loadUnit (c : ChanId) (k : Chan) (q : Port) : (s.setChan c k).loadUnit q = s.loadUnit q := rfl
@[simp] theorem State.setChan_seg (c : ChanId) (k : Chan) (j : SegId) : (s.setChan c k).seg j = s.seg j := rfl
@[simp] theorem State.setChan_page (c : ChanId) (k : Chan) (m : PageNo) : (s.setChan c k).page m = s.page m := rfl
@[simp] theorem State.setChan_claimOf (c : ChanId) (k : Chan) (d : ChanId) : (s.setChan c k).claimOf d = s.claimOf d := rfl
@[simp] theorem State.setChan_tickOf (c : ChanId) (k : Chan) (d : ChanId) : (s.setChan c k).tickOf d = s.tickOf d := rfl

@[simp] theorem State.setSeg_port (i : SegId) (r : SegRec) (q : Port) : (s.setSeg i r).port q = s.port q := rfl
@[simp] theorem State.setSeg_loadUnit (i : SegId) (r : SegRec) (q : Port) : (s.setSeg i r).loadUnit q = s.loadUnit q := rfl
@[simp] theorem State.setSeg_chan (i : SegId) (r : SegRec) (d : ChanId) : (s.setSeg i r).chan d = s.chan d := rfl
@[simp] theorem State.setSeg_page (i : SegId) (r : SegRec) (m : PageNo) : (s.setSeg i r).page m = s.page m := rfl
@[simp] theorem State.setSeg_claimOf (i : SegId) (r : SegRec) (d : ChanId) : (s.setSeg i r).claimOf d = s.claimOf d := rfl
@[simp] theorem State.setSeg_tickOf (i : SegId) (r : SegRec) (d : ChanId) : (s.setSeg i r).tickOf d = s.tickOf d := rfl

@[simp] theorem State.setPage_port (n : PageNo) (r : PageRec) (q : Port) : (s.setPage n r).port q = s.port q := rfl
@[simp] theorem State.setPage_loadUnit (n : PageNo) (r : PageRec) (q : Port) : (s.setPage n r).loadUnit q = s.loadUnit q := rfl
@[simp] theorem State.setPage_chan (n : PageNo) (r : PageRec) (d : ChanId) : (s.setPage n r).chan d = s.chan d := rfl
@[simp] theorem State.setPage_seg (n : PageNo) (r : PageRec) (j : SegId) : (s.setPage n r).seg j = s.seg j := rfl
@[simp] theorem State.setPage_claimOf (n : PageNo) (r : PageRec) (d : ChanId) : (s.setPage n r).claimOf d = s.claimOf d := rfl
@[simp] theorem State.setPage_tickOf (n : PageNo) (r : PageRec) (d : ChanId) : (s.setPage n r).tickOf d = s.tickOf d := rfl

@[simp] theorem State.setClaim_port (c : ChanId) (r : Claim) (q : Port) : (s.setClaim c r).port q = s.port q := rfl
@[simp] theorem State.setClaim_loadUnit (c : ChanId) (r : Claim) (q : Port) : (s.setClaim c r).loadUnit q = s.loadUnit q := rfl
@[simp] theorem State.setClaim_chan (c : ChanId) (r : Claim) (d : ChanId) : (s.setClaim c r).chan d = s.chan d := rfl
@[simp] theorem State.setClaim_seg (c : ChanId) (r : Claim) (j : SegId) : (s.setClaim c r).seg j = s.seg j := rfl
@[simp] theorem State.setClaim_page (c : ChanId) (r : Claim) (m : PageNo) : (s.setClaim c r).page m = s.page m := rfl
@[simp] theorem State.setClaim_tickOf (c : ChanId) (r : Claim) (d : ChanId) : (s.setClaim c r).tickOf d = s.tickOf d := rfl

@[simp] theorem State.setTick_port (c : ChanId) (t : TickStatus) (q : Port) : (s.setTick c t).port q = s.port q := rfl
@[simp] theorem State.setTick_loadUnit (c : ChanId) (t : TickStatus) (q : Port) : (s.setTick c t).loadUnit q = s.loadUnit q := rfl
@[simp] theorem State.setTick_chan (c : ChanId) (t : TickStatus) (d : ChanId) : (s.setTick c t).chan d = s.chan d := rfl
@[simp] theorem State.setTick_seg (c : ChanId) (t : TickStatus) (j : SegId) : (s.setTick c t).seg j = s.seg j := rfl
@[simp] theorem State.setTick_page (c : ChanId) (t : TickStatus) (m : PageNo) : (s.setTick c t).page m = s.page m := rfl
@[simp] theorem State.setTick_claimOf (c : ChanId) (t : TickStatus) (d : ChanId) : (s.setTick c t).claimOf d = s.claimOf d := rfl

@[simp] theorem State.setPassOver_port (p : Port) (n : Nat) (q : Port) : (s.setPassOver p n).port q = s.port q := rfl
@[simp] theorem State.setPassOver_loadUnit (p : Port) (n : Nat) (q : Port) : (s.setPassOver p n).loadUnit q = s.loadUnit q := rfl
@[simp] theorem State.setPassOver_chan (p : Port) (n : Nat) (d : ChanId) : (s.setPassOver p n).chan d = s.chan d := rfl
@[simp] theorem State.setPassOver_seg (p : Port) (n : Nat) (j : SegId) : (s.setPassOver p n).seg j = s.seg j := rfl
@[simp] theorem State.setPassOver_page (p : Port) (n : Nat) (m : PageNo) : (s.setPassOver p n).page m = s.page m := rfl
@[simp] theorem State.setPassOver_claimOf (p : Port) (n : Nat) (d : ChanId) : (s.setPassOver p n).claimOf d = s.claimOf d := rfl
@[simp] theorem State.setPassOver_tickOf (p : Port) (n : Nat) (d : ChanId) : (s.setPassOver p n).tickOf d = s.tickOf d := rfl

/-! ### Reading back what was written -/

@[simp] theorem PerPort.get_set_self {α : Type} (x : PerPort α) (p : Port) (v : α) : (x.set p v).get p = v := by
  cases p <;> rfl

theorem PerPort.get_set {α : Type} (x : PerPort α) (p q : Port) (v : α) :
    (x.set p v).get q = if q = p then v else x.get q := by
  cases p <;> cases q <;> rfl

@[simp] theorem PerPort.get_set_other {α : Type} (x : PerPort α) (p : Port) (v : α) :
    (x.set p v).get p.other = x.get p.other := by
  cases p <;> rfl

@[simp] theorem PerPort.set_get {α : Type} (x : PerPort α) (p : Port) : x.set p (x.get p) = x := by
  cases p <;> rfl

@[simp] theorem PerPort.set_set {α : Type} (x : PerPort α) (p : Port) (v w : α) : (x.set p v).set p w = x.set p w := by
  cases p <;> rfl

theorem PerPort.ext_get {α : Type} {x y : PerPort α} (h : ∀ p, x.get p = y.get p) : x = y := by
  have ha := h .a
  have hb := h .b
  cases x
  cases y
  simp only [PerPort.get] at ha hb
  rw [ha, hb]

@[simp] theorem port_other_other (p : Port) : p.other.other = p := by cases p <;> rfl

@[simp] theorem port_other_ne (p : Port) : p.other ≠ p := by cases p <;> decide

theorem get_set_vector {α : Type} {n : Nat} (v : Vector α n) (i j : Fin n) (x : α) :
    (v.set i x).get j = if j = i then x else v.get j := by
  simp only [Vector.get_eq_getElem, Vector.getElem_set, Fin.ext_iff, eq_comm]

theorem State.setPort_port (p q : Port) (r : PortRec) : (s.setPort p r).port q = if q = p then r else s.port q :=
  PerPort.get_set _ _ _ _

@[simp] theorem State.setPort_port_self (p : Port) (r : PortRec) : (s.setPort p r).port p = r := by
  rw [State.setPort_port, if_pos rfl]

theorem State.setPort_port_ne {p q : Port} (r : PortRec) (h : q ≠ p) : (s.setPort p r).port q = s.port q := by
  rw [State.setPort_port, if_neg h]

theorem State.setLoad_loadUnit (p q : Port) (u : LoadUnit) : (s.setLoad p u).loadUnit q = if q = p then u else s.loadUnit q :=
  PerPort.get_set _ _ _ _

@[simp] theorem State.setLoad_loadUnit_self (p : Port) (u : LoadUnit) : (s.setLoad p u).loadUnit p = u := by
  rw [State.setLoad_loadUnit, if_pos rfl]

theorem State.setLoad_loadUnit_ne {p q : Port} (u : LoadUnit) (h : q ≠ p) : (s.setLoad p u).loadUnit q = s.loadUnit q := by
  rw [State.setLoad_loadUnit, if_neg h]

theorem State.setChan_chan (c d : ChanId) (k : Chan) : (s.setChan c k).chan d = if d = c then k else s.chan d :=
  get_set_vector _ _ _ _

@[simp] theorem State.setChan_chan_self (c : ChanId) (k : Chan) : (s.setChan c k).chan c = k := by
  rw [State.setChan_chan, if_pos rfl]

theorem State.setChan_chan_ne {c d : ChanId} (k : Chan) (h : d ≠ c) : (s.setChan c k).chan d = s.chan d := by
  rw [State.setChan_chan, if_neg h]

theorem State.setSeg_seg (i j : SegId) (r : SegRec) : (s.setSeg i r).seg j = if j = i then r else s.seg j :=
  get_set_vector _ _ _ _

@[simp] theorem State.setSeg_seg_self (i : SegId) (r : SegRec) : (s.setSeg i r).seg i = r := by
  rw [State.setSeg_seg, if_pos rfl]

theorem State.setSeg_seg_ne {i j : SegId} (r : SegRec) (h : j ≠ i) : (s.setSeg i r).seg j = s.seg j := by
  rw [State.setSeg_seg, if_neg h]

theorem State.setPage_page (n m : PageNo) (r : PageRec) : (s.setPage n r).page m = if m = n then r else s.page m :=
  get_set_vector _ _ _ _

@[simp] theorem State.setPage_page_self (n : PageNo) (r : PageRec) : (s.setPage n r).page n = r := by
  rw [State.setPage_page, if_pos rfl]

theorem State.setPage_page_ne {n m : PageNo} (r : PageRec) (h : m ≠ n) : (s.setPage n r).page m = s.page m := by
  rw [State.setPage_page, if_neg h]

theorem State.setClaim_claimOf (c d : ChanId) (r : Claim) : (s.setClaim c r).claimOf d = if d = c then r else s.claimOf d :=
  get_set_vector _ _ _ _

@[simp] theorem State.setClaim_claimOf_self (c : ChanId) (r : Claim) : (s.setClaim c r).claimOf c = r := by
  rw [State.setClaim_claimOf, if_pos rfl]

theorem State.setClaim_claimOf_ne {c d : ChanId} (r : Claim) (h : d ≠ c) : (s.setClaim c r).claimOf d = s.claimOf d := by
  rw [State.setClaim_claimOf, if_neg h]

theorem State.setTick_tickOf (c d : ChanId) (t : TickStatus) : (s.setTick c t).tickOf d = if d = c then t else s.tickOf d :=
  get_set_vector _ _ _ _

@[simp] theorem State.setTick_tickOf_self (c : ChanId) (t : TickStatus) : (s.setTick c t).tickOf c = t := by
  rw [State.setTick_tickOf, if_pos rfl]

theorem State.setTick_tickOf_ne {c d : ChanId} (t : TickStatus) (h : d ≠ c) : (s.setTick c t).tickOf d = s.tickOf d := by
  rw [State.setTick_tickOf, if_neg h]

@[simp] theorem State.setPort_port_other (p : Port) (r : PortRec) : (s.setPort p r).port p.other = s.port p.other :=
  PerPort.get_set_other _ _ _

@[simp] theorem State.setLoad_loadUnit_other (p : Port) (u : LoadUnit) :
    (s.setLoad p u).loadUnit p.other = s.loadUnit p.other :=
  PerPort.get_set_other _ _ _

/-! ### Derived views -/

@[simp] theorem State.setPort_slot (p : Port) (r : PortRec) (a : Nat) : (s.setPort p r).slot a = s.slot a := rfl

@[simp] theorem State.setLoad_slot (p : Port) (u : LoadUnit) (a : Nat) : (s.setLoad p u).slot a = s.slot a := rfl

@[simp] theorem State.setChan_slot (c : ChanId) (k : Chan) (a : Nat) : (s.setChan c k).slot a = s.slot a := rfl

@[simp] theorem State.setSeg_slot (i : SegId) (r : SegRec) (a : Nat) : (s.setSeg i r).slot a = s.slot a := rfl

@[simp] theorem State.setPage_slot (n : PageNo) (r : PageRec) (a : Nat) : (s.setPage n r).slot a = s.slot a := rfl

@[simp] theorem State.setPort_loadBurst (p q : Port) (r : PortRec) : (s.setPort p r).loadBurst q = s.loadBurst q := rfl

@[simp] theorem State.setLoad_loadBurst (p q : Port) (u : LoadUnit) : (s.setLoad p u).loadBurst q = s.loadBurst q := rfl

@[simp] theorem State.setChan_loadBurst (c : ChanId) (k : Chan) (q : Port) :
    (s.setChan c k).loadBurst q = s.loadBurst q := rfl

@[simp] theorem State.setSeg_loadBurst (i : SegId) (r : SegRec) (q : Port) :
    (s.setSeg i r).loadBurst q = s.loadBurst q := rfl

end Sys2Proof.Machine
end

