-- ==== Sys2Proof/Laws/Memory.lean ====
section
/-! SUPPORT. The store's slots: what a write reads back as, and that every memory operation keeps the canonical form. -/

namespace Sys2Proof.Machine

/-! ### Reading after a write (R12, R13) -/

theorem Memory.find_cons (k : Nat) (v : Slot) (r : Memory) (a : Nat) :
    Memory.find ((k, v) :: r) a = if k = a then some v else Memory.find r a :=
  rfl

theorem Memory.write_cons (k : Nat) (v : Slot) (r : Memory) (a : Nat) (x : Slot) :
    Memory.write ((k, v) :: r) a x =
      if a = k then (k, x) :: r else if a < k then (a, x) :: (k, v) :: r else (k, v) :: Memory.write r a x :=
  rfl

theorem Memory.find_write (m : Memory) (a b : Nat) (x : Slot) :
    (Memory.write m a x).find b = if b = a then some x else m.find b := by
  induction m with
  | nil =>
    change (if a = b then some x else none) = _
    by_cases h : b = a
    · rw [if_pos h, if_pos h.symm]
    · rw [if_neg h, if_neg (Ne.symm h)]
      rfl
  | cons kv r ih =>
    obtain ⟨k, v⟩ := kv
    rw [Memory.write_cons]
    by_cases h1 : a = k
    · subst h1
      rw [if_pos rfl, Memory.find_cons, Memory.find_cons]
      by_cases h : b = a
      · rw [if_pos h, if_pos h.symm]
      · rw [if_neg h, if_neg (Ne.symm h), if_neg (Ne.symm h)]
    · rw [if_neg h1]
      by_cases h2 : a < k
      · rw [if_pos h2, Memory.find_cons]
        by_cases h : b = a
        · rw [if_pos h, if_pos h.symm]
        · rw [if_neg h, if_neg (Ne.symm h)]
      · rw [if_neg h2, Memory.find_cons, Memory.find_cons, ih]
        by_cases h : b = a
        · subst h
          rw [if_pos rfl, if_pos rfl, if_neg (Ne.symm h1)]
        · rw [if_neg h, if_neg h]

@[simp] theorem Memory.find_write_self (m : Memory) (a : Nat) (x : Slot) : (Memory.write m a x).find a = some x := by
  rw [Memory.find_write, if_pos rfl]

theorem Memory.find_write_ne (m : Memory) {a b : Nat} (x : Slot) (h : b ≠ a) :
    (Memory.write m a x).find b = m.find b := by
  rw [Memory.find_write, if_neg h]

/-- A slot read after one slot was written. -/
theorem State.slot_write (s : State) (a b : Nat) (x : Slot) :
    ({ s with mem := Memory.write s.mem a x }).slot b = if b = a then x else s.slot b := by
  unfold State.slot
  rw [Memory.find_write]
  split_ifs <;> rfl

/-! ### The canonical form -/

theorem Memory.above_iff (m : Memory) (a : Nat) : Memory.above m a = true ↔ ∀ x ∈ m, a < x.1 := by
  induction m with
  | nil => simp [Memory.above]
  | cons kv r ih => simp [Memory.above, ih]

theorem Memory.wf_iff (m : Memory) : Memory.wf m = true ↔ m.Pairwise fun x y => x.1 < y.1 := by
  induction m with
  | nil => simp [Memory.wf]
  | cons kv r ih => simp [Memory.wf, Memory.above_iff, ih]

/-- The cells of a memory after a write are the one written and those before it. -/
theorem Memory.mem_write (m : Memory) (a : Nat) (x : Slot) {y : Nat × Slot} (h : y ∈ Memory.write m a x) :
    y = (a, x) ∨ y ∈ m := by
  induction m with
  | nil => simpa [Memory.write] using h
  | cons kv r ih =>
    obtain ⟨k, v⟩ := kv
    simp only [Memory.write] at h
    split_ifs at h with h1 h2
    · subst h1
      simp only [List.mem_cons] at h ⊢
      tauto
    · simp only [List.mem_cons] at h ⊢
      tauto
    · simp only [List.mem_cons] at h ⊢
      rcases h with h | h
      · tauto
      · rcases ih h with h | h <;> tauto

theorem Memory.wf_write (m : Memory) (a : Nat) (x : Slot) (h : Memory.wf m = true) :
    Memory.wf (Memory.write m a x) = true := by
  induction m with
  | nil => simp [Memory.write, Memory.wf, Memory.above]
  | cons kv r ih =>
    obtain ⟨k, v⟩ := kv
    simp only [Memory.wf, Bool.and_eq_true, Memory.above_iff] at h
    simp only [Memory.write]
    split_ifs with h1 h2
    · subst h1
      simpa only [Memory.wf, Bool.and_eq_true, Memory.above_iff] using h
    · simp only [Memory.wf, Bool.and_eq_true, Memory.above_iff, List.mem_cons]
      refine ⟨?_, h⟩
      rintro y (rfl | hy)
      · exact h2
      · exact h2.trans (h.1 y hy)
    · simp only [Memory.wf, Bool.and_eq_true, Memory.above_iff]
      refine ⟨fun y hy => ?_, ih h.2⟩
      rcases Memory.mem_write r a x hy with rfl | hy
      · exact lt_of_le_of_ne (Nat.le_of_not_lt h2) (Ne.symm h1)
      · exact h.1 y hy

theorem Memory.wf_upset (m : Memory) (u : Upset) (h : Memory.wf m = true) : Memory.wf (Memory.upset m u) = true := by
  unfold Memory.upset
  split
  · exact Memory.wf_write _ _ _ h
  · exact h

theorem Memory.wf_foldl_upset (us : List Upset) (m : Memory) (h : Memory.wf m = true) :
    Memory.wf (us.foldl Memory.upset m) = true := by
  induction us generalizing m with
  | nil => exact h
  | cons u r ih => exact ih _ (Memory.wf_upset m u h)

theorem wf_writeSlots (page : PageNo) (m : Memory) (slots : List Nat) (vs : List Sample) (h : Memory.wf m = true) :
    Memory.wf (writeSlots page m slots vs) = true := by
  induction slots generalizing m vs with
  | nil => cases vs <;> exact h
  | cons k r ih =>
    cases vs with
    | nil => exact h
    | cons v vs => exact ih _ _ (Memory.wf_write _ _ _ h)

/-- Every memory operation keeps the canonical form: one write, a write burst, disturbances. -/
theorem memory_operations_keep_wf (m : Memory) (h : Memory.wf m = true) :
    (∀ a x, Memory.wf (Memory.write m a x) = true)
      ∧ (∀ page slots vs, Memory.wf (writeSlots page m slots vs) = true)
      ∧ ∀ us : List Upset, Memory.wf (us.foldl Memory.upset m) = true :=
  ⟨fun a x => Memory.wf_write m a x h, fun page slots vs => wf_writeSlots page m slots vs h,
    fun us => Memory.wf_foldl_upset us m h⟩

theorem reset_memory_wf : Memory.wf State.reset.mem = true := rfl

/-! ### Where the cells lie -/

theorem Memory.mem_writeSlots (page : PageNo) (m : Memory) (slots : List Nat) (vs : List Sample) {y : Nat × Slot}
    (h : y ∈ writeSlots page m slots vs) : y ∈ m ∨ ∃ k ∈ slots, y.1 = slotAddr page k := by
  induction slots generalizing m vs with
  | nil =>
    cases vs <;> exact .inl h
  | cons k r ih =>
    cases vs with
    | nil => exact .inl h
    | cons v vs =>
      rcases ih _ _ h with h | ⟨j, hj, e⟩
      · rcases Memory.mem_write _ _ _ h with rfl | h
        · exact .inr ⟨k, List.mem_cons_self, rfl⟩
        · exact .inl h
      · exact .inr ⟨j, List.mem_cons_of_mem _ hj, e⟩

theorem Memory.mem_of_find {m : Memory} {a : Nat} {x : Slot} (h : m.find a = some x) : (a, x) ∈ m := by
  induction m with
  | nil => simp [Memory.find] at h
  | cons kv r ih =>
    obtain ⟨k, v⟩ := kv
    simp only [Memory.find] at h
    split_ifs at h with h1
    · simp_all
    · exact List.mem_cons_of_mem _ (ih h)

/-- A disturbance adds no address. -/
theorem Memory.upset_addresses (m : Memory) (u : Upset) {y : Nat × Slot} (h : y ∈ Memory.upset m u) :
    ∃ z ∈ m, z.1 = y.1 := by
  unfold Memory.upset at h
  split at h
  case h_1 x e =>
    rcases Memory.mem_write _ _ _ h with rfl | h
    · exact ⟨_, Memory.mem_of_find e, rfl⟩
    · exact ⟨y, h, rfl⟩
  case h_2 => exact ⟨y, h, rfl⟩

/-! ### Slots of other operations -/

@[simp] theorem State.disturb_ports (s : State) (us : List Upset) : (s.disturb us).ports = s.ports := rfl

@[simp] theorem State.disturb_chans (s : State) (us : List Upset) : (s.disturb us).chans = s.chans := rfl

@[simp] theorem State.disturb_segs (s : State) (us : List Upset) : (s.disturb us).segs = s.segs := rfl

@[simp] theorem State.disturb_burst (s : State) (us : List Upset) : (s.disturb us).burst = s.burst := rfl

/-- Slots read the same in states with the same memory and reset epoch. -/
theorem State.slot_congr {s t : State} (hm : t.mem = s.mem) (hr : t.resets = s.resets) (a : Nat) :
    t.slot a = s.slot a := by
  unfold State.slot
  rw [hm, hr]

end Sys2Proof.Machine
end

