-- ==== Sys2Proof/Laws/Ports.lean ====
section
/-! SUPPORT. What a released frame, a response and a cause can do to the ports (R165 to R171, R178, R179). -/

namespace Sys2Proof.Machine

/-! ### Responses -/

@[simp] theorem State.respond_port_other (s : State) (p : Port) (e : Byte) (st : Status) (pl : List Byte) :
    (s.respond p e st pl).port p.other = s.port p.other :=
  PerPort.get_set_other _ _ _

/-- The record of the answering port, whole. -/
@[simp] theorem State.respond_port (s : State) (p : Port) (e : Byte) (st : Status) (pl : List Byte) :
    (s.respond p e st pl).port p =
      { s.port p with
        proto := .ready
        unread := some ⟨e, st, flagsByte (s.port p).overrun (s.port p).lost (!(s.port p).events.isEmpty), pl, 0⟩
        overrun := false
        lost := false } :=
  PerPort.get_set_self _ _ _

/-- A response changes the record of its port and nothing else. -/
theorem State.respond_rest (s : State) (p : Port) (e : Byte) (st : Status) (pl : List Byte) :
    { s.respond p e st pl with ports := s.ports } = s :=
  rfl

@[simp] theorem State.respond_mem (s : State) (p : Port) (e : Byte) (st : Status) (pl : List Byte) :
    (s.respond p e st pl).mem = s.mem := rfl

@[simp] theorem State.respond_burst (s : State) (p : Port) (e : Byte) (st : Status) (pl : List Byte) :
    (s.respond p e st pl).burst = s.burst := rfl

@[simp] theorem State.respond_segs (s : State) (p : Port) (e : Byte) (st : Status) (pl : List Byte) :
    (s.respond p e st pl).segs = s.segs := rfl

@[simp] theorem State.respond_loads (s : State) (p : Port) (e : Byte) (st : Status) (pl : List Byte) :
    (s.respond p e st pl).loads = s.loads := rfl

@[simp] theorem State.respond_chans (s : State) (p : Port) (e : Byte) (st : Status) (pl : List Byte) :
    (s.respond p e st pl).chans = s.chans := rfl

/-! ### Released frames -/

/-- The bytes clocked in a command transaction are on record, and nothing else changes. -/
@[simp] theorem State.clockOut_port (s : State) (p : Port) (n : Nat) :
    (s.clockOut p n).port p = { s.port p with lastOut := List.replicate n 0x00#8 } :=
  PerPort.get_set_self _ _ _

@[simp] theorem State.clockOut_port_other (s : State) (p : Port) (n : Nat) :
    (s.clockOut p n).port p.other = s.port p.other :=
  PerPort.get_set_other _ _ _

theorem State.clockOut_rest (s : State) (p : Port) (n : Nat) : { s.clockOut p n with ports := s.ports } = s := rfl

@[simp] theorem State.clockOut_resetHeld (s : State) (p : Port) (n : Nat) : (s.clockOut p n).resetHeld = s.resetHeld := rfl

theorem State.clockOut_listening {s : State} {p : Port} (h : s.Listening p) (n : Nat) : (s.clockOut p n).Listening p := by
  obtain ⟨h1, h2, h3⟩ := h
  exact ⟨h1, by simpa using h2, by simpa using h3⟩

/-- The state in which a frame's command acts. -/
theorem State.took_of {i : Instr} {p : Port} (h : framePort i = some p) (s : State) :
    s.took i = s.clockOut p (frameLength i) := by
  simp [State.took, h]

theorem State.took_port {i : Instr} {p : Port} (h : framePort i = some p) (s : State) :
    (s.took i).port p = { s.port p with lastOut := List.replicate (frameLength i) 0x00#8 } := by
  simp [State.took_of h]

/-- The clocked bytes change the ports' records only. -/
theorem State.took_rest (s : State) (i : Instr) : { s.took i with ports := s.ports } = s := by
  unfold State.took
  split <;> rfl

theorem State.took_listening {s : State} {i : Instr} {p : Port} (h : framePort i = some p) (hl : s.Listening p) :
    (s.took i).Listening p := by
  rw [State.took_of h]
  exact State.clockOut_listening hl _

/-- Under RESET or PRST a frame is not seen. -/
theorem onPort_held {p : Port} {s : State} (n : Nat) (act : State → State)
    (h : s.resetHeld = true ∨ (s.port p).prstHeld = true) : onPort p n s act = s := by
  unfold onPort
  rw [if_pos]
  rcases h with h | h <;> simp [h]

/-- In EXECUTING a frame sets OVERRUN. -/
theorem onPort_executing {p : Port} {s : State} (n : Nat) (act : State → State) (hr : s.resetHeld = false)
    (hp : (s.port p).prstHeld = false) (he : (s.port p).proto = .executing) :
    onPort p n s act = (s.clockOut p n).setPort p { (s.clockOut p n).port p with overrun := true } := by
  simp [onPort, hr, hp, he]

/-- In IDLE the command acts. -/
theorem onPort_idle {p : Port} {s : State} (n : Nat) (act : State → State) (hr : s.resetHeld = false)
    (hp : (s.port p).prstHeld = false) (he : (s.port p).proto = .idle) : onPort p n s act = act (s.clockOut p n) := by
  simp [onPort, hr, hp, he]

/-- The state in which the command acts on a port that takes frames: an unread response is discarded first. -/
def State.opened (s : State) (p : Port) : State :=
  if (s.port p).proto = .ready then s.setPort p { s.port p with proto := .idle, unread := none, lost := true } else s

/-- On a port that takes frames the command acts, on that state. -/
theorem onPort_listening {p : Port} {s : State} (n : Nat) (act : State → State) (h : s.Listening p) :
    onPort p n s act = act ((s.clockOut p n).opened p) := by
  obtain ⟨hr, hp, he⟩ := h
  unfold onPort State.opened
  cases hpr : (s.port p).proto <;> simp_all

theorem State.opened_rest (s : State) (p : Port) : { s.opened p with ports := s.ports } = s := by
  unfold State.opened
  split <;> rfl

theorem State.opened_port_other (s : State) (p : Port) : (s.opened p).port p.other = s.port p.other := by
  unfold State.opened
  split
  · exact PerPort.get_set_other _ _ _
  · rfl

/-- What the discarded response leaves on the port: everything but the protocol record. -/
theorem State.opened_port (s : State) (p : Port) :
    ((s.opened p).port p).events = (s.port p).events ∧ ((s.opened p).port p).enable = (s.port p).enable
      ∧ ((s.opened p).port p).prstHeld = (s.port p).prstHeld ∧ ((s.opened p).port p).lastOut = (s.port p).lastOut
      ∧ ((s.opened p).port p).overrun = (s.port p).overrun
      ∧ ((s.opened p).port p).lost = ((s.port p).lost || decide ((s.port p).proto = .ready)) := by
  unfold State.opened
  split
  case isTrue h => simp [h]
  case isFalse h => simp [h]

@[simp] theorem State.opened_mem (s : State) (p : Port) : (s.opened p).mem = s.mem := by
  unfold State.opened
  split <;> rfl

@[simp] theorem State.opened_burst (s : State) (p : Port) : (s.opened p).burst = s.burst := by
  unfold State.opened
  split <;> rfl

@[simp] theorem State.opened_pages (s : State) (p : Port) : (s.opened p).pages = s.pages := by
  unfold State.opened
  split <;> rfl

@[simp] theorem State.opened_segs (s : State) (p : Port) : (s.opened p).segs = s.segs := by
  unfold State.opened
  split <;> rfl

@[simp] theorem State.opened_loads (s : State) (p : Port) : (s.opened p).loads = s.loads := by
  unfold State.opened
  split <;> rfl

@[simp] theorem State.opened_chans (s : State) (p : Port) : (s.opened p).chans = s.chans := by
  unfold State.opened
  split <;> rfl

@[simp] theorem State.opened_claims (s : State) (p : Port) : (s.opened p).claims = s.claims := by
  unfold State.opened
  split <;> rfl

@[simp] theorem State.opened_arb (s : State) (p : Port) : (s.opened p).arb = s.arb := by
  unfold State.opened
  split <;> rfl

/-- A command that answers from the state it finds and does nothing else. -/
theorem respond_opened (s : State) (p : Port) (e : Byte) (st : Status) (pl : List Byte) :
    OnlyAnswered s ((s.opened p).respond p e st pl) p e st pl := by
  obtain ⟨h1, h2, h3, h4, h5, h6⟩ := s.opened_port p
  refine ⟨⟨?_, ?_, ?_, ?_⟩, ⟨⟨?_, ?_, ?_⟩, ?_, ?_⟩, ?_⟩
  · simp
  · simp [h1, h5, h6]
  · simp
  · simp
  · simp [h2]
  · simp [h3]
  · simp [h4]
  · simp [h1]
  · rw [State.respond_port_other, State.opened_port_other]
  · exact State.opened_rest s p

/-- The same, as the whole of a frame's effect. -/
theorem onPort_respond {s : State} {p : Port} (n : Nat) (h : s.Listening p) (e : Byte) (st : Status) (f : State → List Byte)
    (hf : f ((s.clockOut p n).opened p) = f (s.clockOut p n)) :
    OnlyAnswered (s.clockOut p n) (onPort p n s fun t => t.respond p e st (f t)) p e st (f (s.clockOut p n)) := by
  rw [onPort_listening _ _ h, hf]
  exact respond_opened (s.clockOut p n) p e st (f (s.clockOut p n))

/-! ### Causes -/

/-- The two numbers of R181's order name the source and the kind. -/
theorem eventKey_inj {a b : EventSource} {k l : Kind} (h : eventKey a k = eventKey b l) : a = b ∧ k = l := by
  have hk : ∀ x : Kind, x.code < 16 := fun x => by cases x <;> decide
  have h1 := hk k
  have h2 := hk l
  simp only [eventKey] at h
  have hs : a.code = b.code := by omega
  have hc : k.code = l.code := by omega
  constructor
  · cases a <;> cases b <;> simp only [EventSource.code] at hs
    · exact congrArg _ (Fin.ext hs)
    · omega
    · omega
    · rfl
  · clear h h1 h2 hs
    cases k <;> cases l <;> first | rfl | exact absurd hc (by decide)

/-- An entry of the set after a cause was there before, or is the cause's own. -/
theorem mem_raiseIn {l : List EventEntry} {src : EventSource} {k : Kind} {d : Detail} {e : EventEntry}
    (h : e ∈ raiseIn l src k d) : e ∈ l ∨ e.key = eventKey src k := by
  induction l with
  | nil =>
    right
    simp only [raiseIn, List.mem_singleton] at h
    rw [h]
    rfl
  | cons x r ih =>
    simp only [raiseIn] at h
    split_ifs at h with h1 h2
    · rcases List.mem_cons.1 h with rfl | h
      · exact .inr h1
      · exact .inl (List.mem_cons_of_mem _ h)
    · rcases List.mem_cons.1 h with rfl | h
      · exact .inr rfl
      · exact .inl h
    · rcases List.mem_cons.1 h with rfl | h
      · exact .inl List.mem_cons_self
      · rcases ih h with h | h
        · exact .inl (List.mem_cons_of_mem _ h)
        · exact .inr h

/-- The cause's own entry stands in the set after it. -/
theorem raiseIn_has (l : List EventEntry) (src : EventSource) (k : Kind) (d : Detail) :
    ∃ e ∈ raiseIn l src k d, e.source = src ∧ e.kind = k := by
  induction l with
  | nil => exact ⟨_, List.mem_singleton.2 rfl, rfl, rfl⟩
  | cons x r ih =>
    simp only [raiseIn]
    split_ifs with h1 h2
    · exact ⟨_, List.mem_cons_self, eventKey_inj h1⟩
    · exact ⟨_, List.mem_cons_self, rfl, rfl⟩
    · obtain ⟨e, he, h⟩ := ih
      exact ⟨e, List.mem_cons_of_mem _ he, h⟩

/-- The order of the set is kept. -/
theorem raiseIn_sorted {l : List EventEntry} (src : EventSource) (k : Kind) (d : Detail)
    (h : l.Pairwise fun e f => e.key < f.key) : (raiseIn l src k d).Pairwise fun e f => e.key < f.key := by
  induction l with
  | nil => simp [raiseIn]
  | cons x r ih =>
    obtain ⟨hx, hr⟩ := List.pairwise_cons.1 h
    simp only [raiseIn]
    split_ifs with h1 h2
    · exact List.pairwise_cons.2 ⟨hx, hr⟩
    · refine List.pairwise_cons.2 ⟨?_, h⟩
      rintro y hy
      rcases List.mem_cons.1 hy with rfl | hy
      · exact h2
      · exact lt_trans h2 (hx y hy)
    · refine List.pairwise_cons.2 ⟨fun y hy => ?_, ih hr⟩
      rcases mem_raiseIn hy with hy | hy
      · exact hx y hy
      · rw [hy]
        omega

@[simp] theorem State.raiseTo_port_other (s : State) (p : Port) (src : EventSource) (k : Kind) (d : Detail) :
    (s.raiseTo p src k d).port p.other = s.port p.other :=
  PerPort.get_set_other _ _ _

@[simp] theorem State.raiseTo_port (s : State) (p : Port) (src : EventSource) (k : Kind) (d : Detail) :
    (s.raiseTo p src k d).port p = { s.port p with events := raiseIn (s.port p).events src k d } :=
  PerPort.get_set_self _ _ _

/-- A cause raised to both ports reaches both event sets and changes nothing else. -/
theorem State.raiseBoth_spec (s : State) (src : EventSource) (k : Kind) :
    (∀ p, (s.raiseBoth src k).port p = { s.port p with events := raiseIn (s.port p).events src k .nothing })
      ∧ { s.raiseBoth src k with ports := s.ports } = s := by
  refine ⟨fun p => ?_, rfl⟩
  cases p <;> rfl

/-- Causes of a channel raised one after another change event sets only. -/
theorem State.raiseAll_spec (s : State) (c : ChanId) (ks : List Kind) :
    (∀ p, (s.raiseAll c ks).port p =
        { s.port p with events := ks.foldl (fun l k => raiseIn l (.chan c) k .nothing) (s.port p).events })
      ∧ { s.raiseAll c ks with ports := s.ports } = s := by
  induction ks generalizing s with
  | nil => exact ⟨fun _ => rfl, rfl⟩
  | cons k r ih =>
    obtain ⟨h1, h2⟩ := ih (s.raiseBoth (.chan c) k)
    obtain ⟨h3, h4⟩ := s.raiseBoth_spec (.chan c) k
    constructor
    · intro p
      exact (h1 p).trans (by rw [h3 p]; rfl)
    · exact congrArg (fun t : State => { t with ports := s.ports }) h2

@[simp] theorem State.raiseAll_nil (s : State) (c : ChanId) : s.raiseAll c [] = s := rfl

/-- The causes that an event can add to a port's set are those it raises. -/
theorem mem_foldl_raiseIn {c : ChanId} {ks : List Kind} {l : List EventEntry} {e : EventEntry}
    (h : e ∈ ks.foldl (fun l k => raiseIn l (.chan c) k .nothing) l) :
    e ∈ l ∨ ∃ k ∈ ks, e.source = .chan c ∧ e.kind = k := by
  induction ks generalizing l with
  | nil => exact .inl h
  | cons k r ih =>
    rcases ih h with h | ⟨j, hj, he⟩
    · rcases mem_raiseIn h with h | h
      · exact .inl h
      · exact .inr ⟨k, List.mem_cons_self, eventKey_inj h⟩
    · exact .inr ⟨j, List.mem_cons_of_mem _ hj, he⟩

end Sys2Proof.Machine
end

