-- ==== Sys2Proof/Laws/Segments.lean ====
section
/-! SUPPORT. What pages given back, segments freed, readbacks taken or cancelled and loads aborted can change. -/

namespace Sys2Proof.Machine

/-! ### Readbacks -/

/-- The suspect indices of a burst whose first item has index k are those of its bad items (R35). -/
theorem mem_suspectIndices (k : Nat) (slots : List Slot) (n : Nat) :
    n ∈ suspectIndices k slots ↔ ∃ j x, slots[j]? = some x ∧ Slot.bad x = true ∧ n = k + j := by
  induction slots generalizing k with
  | nil => simp [suspectIndices]
  | cons y r ih =>
    have hs : (∃ j x, (y :: r)[j]? = some x ∧ Slot.bad x = true ∧ n = k + j)
        ↔ (Slot.bad y = true ∧ n = k) ∨ ∃ j x, r[j]? = some x ∧ Slot.bad x = true ∧ n = k + 1 + j := by
      constructor
      · rintro ⟨j, x, h1, h2, h3⟩
        cases j with
        | zero => exact .inl ⟨by simpa [← (by simpa using h1 : y = x)] using h2, h3⟩
        | succ j => exact .inr ⟨j, x, by simpa using h1, h2, by omega⟩
      · rintro (⟨h1, h2⟩ | ⟨j, x, h1, h2, h3⟩)
        · exact ⟨0, y, rfl, h1, by omega⟩
        · exact ⟨j + 1, x, by simpa using h1, h2, by omega⟩
    rw [hs, ← ih]
    by_cases h : Slot.bad y = true <;> simp [suspectIndices, h]

/-- They are in ascending order. -/
theorem suspectIndices_sorted (k : Nat) (slots : List Slot) : (suspectIndices k slots).Pairwise (· < ·) := by
  induction slots generalizing k with
  | nil => simp [suspectIndices]
  | cons y r ih =>
    unfold suspectIndices
    split_ifs with h
    · refine List.pairwise_cons.2 ⟨fun n hn => ?_, ih _⟩
      obtain ⟨j, _, _, _, rfl⟩ := (mem_suspectIndices _ _ _).1 hn
      omega
    · exact ih _

/-! ### Pages -/

/-- One page given back (R7). -/
theorem State.givePage_eq (s : State) (n : PageNo) :
    s.givePage n =
      if (s.page n).suspect then
        { s with retired := s.retired ++ [n], pages := s.pages.set n ⟨.retired, (s.page n).suspect⟩ }
      else { s with freeList := s.freeList ++ [n], pages := s.pages.set n ⟨.free, (s.page n).suspect⟩ } := by
  unfold State.givePage
  split <;> rfl

/-- What pages given back can change: page records, the free list and the retired list. -/
theorem State.givePages_eq (s : State) (l : List PageNo) :
    ∃ pg fl rt, s.givePages l = { s with pages := pg, freeList := fl, retired := rt } := by
  have h : ∀ (l : List PageNo) (t : State), ∃ pg fl rt,
      l.foldl State.givePage t = { t with pages := pg, freeList := fl, retired := rt } := by
    intro l
    induction l with
    | nil => exact fun t => ⟨t.pages, t.freeList, t.retired, rfl⟩
    | cons n r ih =>
      intro t
      rw [List.foldl_cons, State.givePage_eq]
      split
      · obtain ⟨pg, fl, rt, h⟩ := ih { t with
          retired := t.retired ++ [n], pages := t.pages.set n ⟨.retired, (t.page n).suspect⟩ }
        exact ⟨pg, fl, rt, h⟩
      · obtain ⟨pg, fl, rt, h⟩ := ih { t with
          freeList := t.freeList ++ [n], pages := t.pages.set n ⟨.free, (t.page n).suspect⟩ }
        exact ⟨pg, fl, rt, h⟩
  exact h l s

/-- Pages given back one at a time keep every suspect flag. -/
theorem State.givePage_suspect (s : State) (n m : PageNo) : ((s.givePage n).page m).suspect = (s.page m).suspect := by
  rw [State.givePage_eq]
  split
  · change ((s.pages.set n ⟨.retired, (s.page n).suspect⟩).get m).suspect = _
    rw [get_set_vector]
    split
    · rename_i h
      rw [h]
    · rfl
  · change ((s.pages.set n ⟨.free, (s.page n).suspect⟩).get m).suspect = _
    rw [get_set_vector]
    split
    · rename_i h
      rw [h]
    · rfl

/-- What pages taken from the head of the free list can change. -/
theorem State.takePages_eq (s : State) (n : Nat) :
    ∃ pg, s.takePages n = { s with freeList := s.freeList.drop n, pages := pg } := by
  have h : ∀ (l : List PageNo) (t : State), ∃ pg, l.foldl (fun t x => t.markPage .held x) t = { t with pages := pg } := by
    intro l
    induction l with
    | nil => exact fun t => ⟨t.pages, rfl⟩
    | cons x r ih =>
      intro t
      obtain ⟨pg, h⟩ := ih (t.markPage .held x)
      exact ⟨pg, h⟩
  exact h _ _

/-- What the end of a read burst in the store can change (R8, R9, R13). -/
theorem State.endRead_eq (s : State) (b : Burst) :
    ∃ pg fl rt, s.endRead b = { s with burst := none, pages := pg, freeList := fl, retired := rt } := by
  unfold State.endRead State.suspectPage
  dsimp only
  split
  · split <;> exact ⟨_, _, _, rfl⟩
  · exact ⟨_, _, _, rfl⟩

/-! ### Readbacks -/

/-- What the cancellation of one port's readback can change (R37). -/
theorem State.cancelReadback_eq (s : State) (i : SegId) (p : Port) :
    ∃ ls b a, s.cancelReadback i p = { s with loads := ls, burst := b, arb := a } := by
  unfold State.cancelReadback State.dropReadBurst
  dsimp only
  split
  · split
    · split <;> (split <;> first | exact ⟨_, _, _, rfl⟩ | (split <;> exact ⟨_, _, _, rfl⟩))
    · exact ⟨_, _, _, rfl⟩
  · exact ⟨_, _, _, rfl⟩

/-- What the answers to cancelled readbacks can change. -/
theorem State.settleCancelled_eq (s : State) : ∃ ls ps, s.settleCancelled = { s with loads := ls, ports := ps } := by
  have h : ∀ (t : State) (p : Port), ∃ ls ps, t.answerCancelled p = { t with loads := ls, ports := ps } := by
    intro t p
    unfold State.answerCancelled
    dsimp only
    split
    · split <;> exact ⟨_, _, rfl⟩
    · exact ⟨_, _, rfl⟩
  obtain ⟨ls, ps, h1⟩ := h s .a
  obtain ⟨ls', ps', h2⟩ := h { s with loads := ls, ports := ps } .b
  unfold State.settleCancelled
  rw [h1, h2]
  exact ⟨_, _, rfl⟩

/-- With no readback cancelled there is nothing to answer. -/
theorem State.settleCancelled_of_none (s : State)
    (h : ∀ p, ∀ r, (s.loadUnit p).readback = some r → r.mark ≠ .cancelled) : s.settleCancelled = s := by
  have h' : ∀ p, s.answerCancelled p = s := by
    intro p
    unfold State.answerCancelled
    dsimp only
    split
    · rename_i r hr
      rw [if_neg (h p r hr)]
    · rfl
  unfold State.settleCancelled
  rw [h', h']

/-! ### Segments and loads -/

/-- What the freeing of a segment can change (R19, R37): its record, pages and page lists, readbacks, the burst in flight
(dropped) and pass-over counts. -/
theorem State.freeSegment_eq (s : State) (i : SegId) :
    ∃ pg fl rt ls b a, s.freeSegment i =
      { s with
        segs := s.segs.set i .freed, pages := pg, freeList := fl, retired := rt, loads := ls, burst := b, arb := a } := by
  unfold State.freeSegment
  obtain ⟨pg, fl, rt, h⟩ := s.givePages_eq (s.seg i).pages
  rw [h]
  generalize hu : State.setSeg { s with pages := pg, freeList := fl, retired := rt } i .freed = u
  obtain ⟨l1, b1, a1, h1⟩ := u.cancelReadback_eq i .a
  rw [h1]
  obtain ⟨l2, b2, a2, h2⟩ := State.cancelReadback_eq { u with loads := l1, burst := b1, arb := a1 } i .b
  rw [h2, ← hu]
  exact ⟨_, _, _, _, _, _, rfl⟩

@[simp] theorem State.freeSegment_seg (s : State) (i j : SegId) :
    (s.freeSegment i).seg j = if j = i then .freed else s.seg j := by
  obtain ⟨_, _, _, _, _, _, h⟩ := s.freeSegment_eq i
  rw [h]
  exact get_set_vector _ _ _ _

@[simp] theorem State.freeSegment_mem (s : State) (i : SegId) : (s.freeSegment i).mem = s.mem := by
  obtain ⟨_, _, _, _, _, _, h⟩ := s.freeSegment_eq i
  rw [h]

@[simp] theorem State.freeSegment_chans (s : State) (i : SegId) : (s.freeSegment i).chans = s.chans := by
  obtain ⟨_, _, _, _, _, _, h⟩ := s.freeSegment_eq i
  rw [h]

@[simp] theorem State.freeSegment_ports (s : State) (i : SegId) : (s.freeSegment i).ports = s.ports := by
  obtain ⟨_, _, _, _, _, _, h⟩ := s.freeSegment_eq i
  rw [h]

@[simp] theorem State.freeSegment_claims (s : State) (i : SegId) : (s.freeSegment i).claims = s.claims := by
  obtain ⟨_, _, _, _, _, _, h⟩ := s.freeSegment_eq i
  rw [h]

/-- With no live readback of it, a segment's freeing touches its record and its pages only. -/
theorem State.freeSegment_quiet (s : State) (i : SegId)
    (h : ∀ p, ∀ r, (s.loadUnit p).readback = some r → r.seg = i → r.mark ≠ .live) :
    s.freeSegment i = (s.givePages (s.seg i).pages).setSeg i .freed := by
  obtain ⟨pg, fl, rt, e⟩ := s.givePages_eq (s.seg i).pages
  have h' : ∀ p, ((s.givePages (s.seg i).pages).setSeg i .freed).cancelReadback i p
      = (s.givePages (s.seg i).pages).setSeg i .freed := by
    intro p
    rw [e]
    unfold State.cancelReadback
    dsimp only
    split
    · rename_i r hr
      rw [if_neg fun hx => h p r hr hx.1 hx.2]
    · rfl
  unfold State.freeSegment
  rw [h', h']

/-- What the release of a segment by an entry can change (R47). -/
theorem State.releaseSegment_eq (s : State) (i : SegId) :
    ∃ sg pg fl rt ls b a ps, s.releaseSegment i =
      { s with
        segs := sg, pages := pg, freeList := fl, retired := rt, loads := ls, burst := b, arb := a, ports := ps } := by
  unfold State.releaseSegment
  dsimp only
  split
  · have hr : ∃ ps, s.raiseFreed i (s.seg i).owner = { s with ports := ps } := by
      unfold State.raiseFreed
      split <;> exact ⟨_, rfl⟩
    obtain ⟨ps, h⟩ := hr
    rw [h]
    obtain ⟨_, _, _, _, _, _, h⟩ := State.freeSegment_eq { s with ports := ps } i
    rw [h]
    exact ⟨_, _, _, _, _, _, _, _, rfl⟩
  · exact ⟨_, _, _, _, _, _, _, _, rfl⟩

theorem State.releaseAll_eq (s : State) (l : List Entry) :
    ∃ sg pg fl rt ls b a ps, (s.releaseAll l).1 =
      { s with
        segs := sg, pages := pg, freeList := fl, retired := rt, loads := ls, burst := b, arb := a, ports := ps } := by
  induction l generalizing s with
  | nil => exact ⟨s.segs, s.pages, s.freeList, s.retired, s.loads, s.burst, s.arb, s.ports, rfl⟩
  | cons e r ih =>
    obtain ⟨_, _, _, _, _, _, _, _, h⟩ := s.releaseSegment_eq e.seg
    change ∃ sg pg fl rt ls b a ps, ((s.releaseSegment e.seg).releaseAll r).1 = _
    rw [h]
    obtain ⟨_, _, _, _, _, _, _, _, h'⟩ := ih { s with
      segs := _, pages := _, freeList := _, retired := _, loads := _, burst := _, arb := _, ports := _ }
    exact ⟨_, _, _, _, _, _, _, _, h'⟩

/-- What the abort of an open load can change (R27). -/
theorem State.abortOpen_eq (s : State) (p : Port) :
    ∃ sg pg fl rt ls b a, s.abortOpen p =
      { s with segs := sg, pages := pg, freeList := fl, retired := rt, loads := ls, burst := b, arb := a } := by
  unfold State.abortOpen
  dsimp only
  generalize h1 : (if s.drainRequest p = true then s.setPassOver p 0 else s) = u
  have hu : ∃ a, u = { s with arb := a } := by
    rw [← h1]
    split <;> exact ⟨_, rfl⟩
  obtain ⟨a, rfl⟩ := hu
  split
  · unfold State.endLoad
    dsimp only
    split
    · rename_i i _
      obtain ⟨_, _, _, _, _, _, h⟩ := State.freeSegment_eq { s with arb := a } i
      rw [h]
      exact ⟨_, _, _, _, _, _, _, rfl⟩
    · exact ⟨_, _, _, _, _, _, _, rfl⟩
  · exact ⟨_, _, _, _, _, _, _, rfl⟩

/-- What a port reset can change (R161, R162). -/
theorem State.resetOnePort_eq (s : State) (p : Port) :
    ∃ cl sg pg fl rt ls b a ps, s.resetOnePort p =
      { s with
        claims := cl, segs := sg, pages := pg, freeList := fl, retired := rt, loads := ls, burst := b, arb := a
        ports := ps } := by
  unfold State.resetOnePort State.resetLoad
  dsimp only
  generalize h1 : State.dropReadBurst { s with
    claims := s.claims.map fun (k : Claim) => if k.controller = some p then ⟨none, false⟩ else k } p = u
  have hu : ∃ cl b, u = { s with claims := cl, burst := b } := by
    rw [← h1]
    unfold State.dropReadBurst
    split
    · split <;> exact ⟨_, _, rfl⟩
    · exact ⟨_, _, rfl⟩
  obtain ⟨cl, b, rfl⟩ := hu
  generalize hv : State.setLoad { s with claims := cl, burst := b } p _ = v
  have hv' : ∃ ls, v = { s with claims := cl, burst := b, loads := ls } := ⟨_, hv.symm⟩
  obtain ⟨ls, rfl⟩ := hv'
  split
  · obtain ⟨_, _, _, _, _, _, _, h⟩ := State.abortOpen_eq { s with claims := cl, burst := b, loads := ls } p
    rw [h]
    exact ⟨_, _, _, _, _, _, _, _, _, rfl⟩
  · exact ⟨_, _, _, _, _, _, _, _, _, rfl⟩

end Sys2Proof.Machine
end

