-- ==== Sys2Proof/Laws/Step.lean ====
section
/-! SUPPORT. A command always answers a next state, and a step runs the command at the front of the queue. -/

namespace Sys2Proof.Machine

/-- Every command answers a next state in every state. -/
theorem exec_total (i : Instr) (s : State) : ∃ t, exec i s = .next t := by
  cases i <;> exact ⟨_, rfl⟩

/-- A step with a command at the front of the queue is the command's effect on the state with the queue's rest. -/
theorem step_cons (s : State) (c : Instr) (q : List Instr) (h : s.pending = c :: q) :
    step s = exec c { s with pending := q } := by
  unfold step
  rw [h]

/-- A step on an empty queue is one period of REFCLK. -/
theorem step_nil (s : State) (h : s.pending = []) : step s = .next s.refclkPeriod := by
  unfold step
  rw [h]

/-- Every step answers a next state. -/
theorem step_total (s : State) : ∃ t, step s = .next t := by
  cases h : s.pending with
  | nil => exact ⟨_, step_nil s h⟩
  | cons c q =>
    obtain ⟨t, ht⟩ := exec_total c { s with pending := q }
    exact ⟨t, (step_cons s c q h).trans ht⟩

end Sys2Proof.Machine
end

