-- ==== Sys2Proof/Laws/Work.lean ====
section
/-! SUPPORT. What an event of one channel can do (`Work`, `State.putWork`), and the frames of ticks, trigger events and line
deliveries over the whole part. -/

namespace Sys2Proof.Machine

/-! ### The burst in flight -/

/-- A flush leaves the burst in flight, or marks it DROP (R113). -/
theorem dropBurst_cases (c : ChanId) (o : Option Burst) :
    dropBurst c o = o ∨ ∃ b, o = some b ∧ b.requester = .fetcher c ∧ dropBurst c o = some { b with keep := false } := by
  unfold dropBurst
  split
  · rename_i b
    split
    · rename_i h
      exact .inr ⟨b, rfl, by simpa [Burst.isOf] using h, rfl⟩
    · exact .inl rfl
  · exact .inl rfl

@[simp] theorem dropBurst_none (c : ChanId) : dropBurst c none = none := rfl

@[simp] theorem dropBurst_isSome (c : ChanId) (o : Option Burst) : (dropBurst c o).isSome = o.isSome := by
  rcases dropBurst_cases c o with h | ⟨b, rfl, _, h⟩
  · rw [h]
  · rw [h]
    rfl

theorem ownBurst_eq (c : ChanId) (o : Option Burst) (b : Burst) :
    ownBurst c o = some b ↔ o = some b ∧ b.requester = .fetcher c := by
  unfold ownBurst
  split
  · rename_i x
    split
    · rename_i h
      have hx : x.requester = .fetcher c := by simpa [Burst.isOf] using h
      constructor
      · rintro ⟨⟩
        exact ⟨rfl, hx⟩
      · rintro ⟨⟨⟩, _⟩
        rfl
    · rename_i h
      constructor
      · rintro ⟨⟩
      · rintro ⟨⟨⟩, hb⟩
        exact absurd (by simp [Burst.isOf, hb]) h
  · simp

/-! ### The FIFO -/

/-- What `dropBelow` removes is a run at the head, below the index, that ends no later than the first last-of-pass item; it
stops there or at an item that is not below (R106). -/
theorem dropBelow_spec (i : Nat) (l : List Item) :
    ∃ run, l = run ++ dropBelow i l ∧ (∀ x ∈ run, x.index < i) ∧ (∀ x ∈ run.dropLast, x.last = false)
      ∧ ((∃ x, run.getLast? = some x ∧ x.last = true) ∨ ∀ y, (dropBelow i l).head? = some y → i ≤ y.index) := by
  induction l with
  | nil => exact ⟨[], by simp [dropBelow]⟩
  | cons it r ih =>
    unfold dropBelow
    split_ifs with h1 h2
    · exact ⟨[it], by simp, by simpa using h1, by simp, .inl ⟨it, rfl, h2⟩⟩
    · obtain ⟨run, hl, hi, hd, he⟩ := ih
      refine ⟨it :: run, ?_, ?_, ?_, ?_⟩
      · rw [List.cons_append, ← hl]
      · simpa using ⟨h1, hi⟩
      · cases run with
        | nil => simp
        | cons z zs => simpa using ⟨by simpa using h2, by simpa using hd⟩
      · refine he.imp ?_ id
        rintro ⟨x, hx, hb⟩
        cases run with
        | nil => simp at hx
        | cons z zs => exact ⟨x, by simpa using hx, hb⟩
    · exact ⟨[], rfl, by simp, by simp, .inr fun y hy => by
        obtain rfl : it = y := by simpa using hy
        omega⟩

/-- A FIFO that holds a last-of-pass item splits at the first of them. -/
theorem afterPassRun_some {l rest : List Item} (h : afterPassRun l = some rest) :
    ∃ run it, l = run ++ it :: rest ∧ (∀ x ∈ run, x.last = false) ∧ it.last = true ∧ passRun l = run ++ [it] := by
  induction l with
  | nil => cases h
  | cons x r ih =>
    unfold afterPassRun at h
    unfold passRun
    split_ifs at h ⊢ with hx
    · obtain rfl := Option.some.inj h
      exact ⟨[], x, rfl, by simp, hx, rfl⟩
    · obtain ⟨run, it, h1, h2, h3, h4⟩ := ih h
      refine ⟨x :: run, it, by rw [h1, List.cons_append], ?_, h3, by rw [h4, List.cons_append]⟩
      simpa using ⟨by simpa using hx, h2⟩

theorem afterPassRun_isSome (l : List Item) : (afterPassRun l).isSome = l.any Item.last := by
  induction l with
  | nil => rfl
  | cons x r ih =>
    unfold afterPassRun
    split_ifs with hx <;> simp [hx, ih]

/-- What `carriesLast` decides. -/
theorem carriesLast_iff (c : ChanId) (w : Work) :
    carriesLast c w = true ↔ ∃ b g, w.burst = some b ∧ b.requester = .fetcher c ∧ b.keep = true ∧ b.tag = some g
      ∧ g.entry = w.ch.entry ∧ g.pass = w.ch.pass ∧ g.index + b.count = g.length := by
  unfold carriesLast ownBurst
  cases hb : w.burst with
  | none => simp
  | some b =>
    by_cases ho : b.isOf c = true
    · have hr : b.requester = .fetcher c := by simpa [Burst.isOf] using ho
      cases ht : b.tag <;> simp [ho, hr, ht, and_assoc]
    · have hr : b.requester ≠ .fetcher c := by simpa [Burst.isOf] using ho
      simp [ho, hr]

/-! ### Small operations on a channel -/

/-- Placing a level: the output value is the level and the lane word is 32768 above it (R58, R99). -/
theorem Chan.place_spec (k : Chan) (v : Sample) :
    (k.place v).out = v ∧ ((k.place v).lane.toNat : Int) = v.toInt + 32768
      ∧ { k.place v with out := k.out, lane := k.lane } = k := by
  refine ⟨rfl, ?_, rfl⟩
  have h1 := BitVec.toInt_lt (x := v)
  have h2 := BitVec.le_toInt (x := v)
  simp only [Chan.place, BitVec.toNat_ofInt]
  omega

/-- Applying the pending record (R143): nothing when it is empty, else the live parameters, the record and APPLIED. -/
theorem Work.applyStaged_spec (w : Work) :
    w.applyStaged =
      if w.ch.staged.isEmpty then w
      else { w with
        ch := { w.ch with live := w.ch.live.overwrite w.ch.staged, staged := .empty }
        raised := w.raised ++ [.applied] } :=
  rfl

/-- Applying the record touches only the live parameters, the record and the causes raised. -/
theorem Work.applyStaged_frame (w : Work) :
    w.applyStaged.burst = w.burst
      ∧ { w.applyStaged.ch with live := w.ch.live, staged := w.ch.staged } = w.ch := by
  rw [Work.applyStaged_spec]
  split_ifs <;> exact ⟨rfl, rfl⟩

/-- A flush (R113): the FIFO, the cursor, the target, the episode and the stalled flag; the own burst marked DROP. -/
theorem Work.flush_spec (c : ChanId) (w : Work) :
    w.flush c =
      { w with
        ch := { w.ch with fifo := [], cursor := none, target := none, underrun := false, passStalled := false }
        burst := dropBurst c w.burst } :=
  rfl

/-- What the cursor's move past the end of its pass can change (R103). -/
theorem Chan.cursorPastPass_frame (k : Chan) (cur : Cursor) :
    { k.cursorPastPass cur with cursor := k.cursor, target := k.target } = k := by
  unfold Chan.cursorPastPass
  split
  · rfl
  · split
    · rfl
    · split
      · rfl
      · split <;> rfl

theorem Chan.moveCursor_frame (k : Chan) (cur : Cursor) (n L : Nat) :
    { k.moveCursor cur n L with cursor := k.cursor, target := k.target } = k := by
  unfold Chan.moveCursor
  split
  · rfl
  · exact Chan.cursorPastPass_frame k cur

/-! ### The event put back into the part -/

/-- Everything an event of channel c can change: the channel, the burst in flight and the two event sets. -/
theorem State.putWork_spec (s : State) (c : ChanId) (w : Work) :
    (∀ d, (s.putWork c w).chan d = if d = c then w.ch else s.chan d)
      ∧ (s.putWork c w).burst = w.burst
      ∧ (∀ p, (s.putWork c w).port p =
          { s.port p with events := w.raised.foldl (fun l k => raiseIn l (.chan c) k .nothing) (s.port p).events })
      ∧ { s.putWork c w with chans := s.chans, burst := s.burst, ports := s.ports } = s := by
  obtain ⟨h1, h2⟩ := State.raiseAll_spec { s.setChan c w.ch with burst := w.burst } c w.raised
  refine ⟨fun d => ?_, ?_, fun p => h1 p, ?_⟩
  · have h := congrArg (fun t : State => t.chan d) h2
    exact h.trans (State.setChan_chan s c d w.ch)
  · exact congrArg State.burst h2
  · exact congrArg (fun t : State => { t with chans := s.chans, burst := s.burst, ports := s.ports }) h2

/-- The same, as one equation. -/
theorem State.putWork_eq (s : State) (c : ChanId) (w : Work) :
    ∃ ps, s.putWork c w = { s with chans := s.chans.set c w.ch, burst := w.burst, ports := ps } := by
  obtain ⟨_, h⟩ := State.raiseAll_spec { s.setChan c w.ch with burst := w.burst } c w.raised
  exact ⟨_, (congrArg (fun t : State => { t with ports := (s.putWork c w).ports }) h)⟩

/-- An event that changes nothing puts back nothing. -/
theorem State.putWork_work (s : State) (c : ChanId) : s.putWork c (s.work c) = s := by
  have h : s.setChan c (s.chan c) = s := by
    unfold State.setChan State.chan
    have : s.chans.set c (s.chans.get c) = s.chans := by
      apply Vector.ext
      intro i hi
      simp only [Vector.get_eq_getElem, Vector.getElem_set]
      split_ifs with e
      · subst e
        rfl
      · rfl
    rw [this]
  unfold State.putWork State.work
  rw [h]
  rfl

/-! ### Trigger events -/

/-- A trigger event at one channel changes start-pending, start request, latches and the causes raised (R124 to R127). -/
theorem Work.triggerEvent_frame (deaf : Bool) (src : Source) (w : Work) :
    (w.triggerEvent deaf src).burst = w.burst
      ∧ { (w.triggerEvent deaf src).ch with
          startPending := w.ch.startPending, startRequest := w.ch.startRequest, startLatch := w.ch.startLatch,
          advLatch := w.ch.advLatch, updLatch := w.ch.updLatch } = w.ch := by
  have hs : ∀ w : Work, (w.startEvent deaf).burst = w.burst ∧
      { (w.startEvent deaf).ch with
        startPending := w.ch.startPending, startRequest := w.ch.startRequest, startLatch := w.ch.startLatch,
        advLatch := w.ch.advLatch, updLatch := w.ch.updLatch } = w.ch := by
    intro w
    unfold Work.startEvent
    split
    · exact ⟨rfl, rfl⟩
    · split
      · split <;> exact ⟨rfl, rfl⟩
      · split <;> exact ⟨rfl, rfl⟩
      all_goals exact ⟨rfl, rfl⟩
  have hl : ∀ w : Work, w.latchAdvance.burst = w.burst ∧
      { w.latchAdvance.ch with
        startPending := w.ch.startPending, startRequest := w.ch.startRequest, startLatch := w.ch.startLatch,
        advLatch := w.ch.advLatch, updLatch := w.ch.updLatch } = w.ch := by
    intro w
    unfold Work.latchAdvance
    split <;> exact ⟨rfl, rfl⟩
  have ha : ∀ w : Work, w.advanceEvent.burst = w.burst ∧
      { w.advanceEvent.ch with
        startPending := w.ch.startPending, startRequest := w.ch.startRequest, startLatch := w.ch.startLatch,
        advLatch := w.ch.advLatch, updLatch := w.ch.updLatch } = w.ch := by
    intro w
    unfold Work.advanceEvent
    split
    · exact hl w
    · exact hl w
    · split
      · exact hl w
      · exact ⟨rfl, rfl⟩
    all_goals exact ⟨rfl, rfl⟩
  have hu : ∀ w : Work, w.updateEvent.burst = w.burst ∧
      { w.updateEvent.ch with
        startPending := w.ch.startPending, startRequest := w.ch.startRequest, startLatch := w.ch.startLatch,
        advLatch := w.ch.advLatch, updLatch := w.ch.updLatch } = w.ch := by
    intro w
    unfold Work.updateEvent
    split
    · split <;> exact ⟨rfl, rfl⟩
    · exact ⟨rfl, rfl⟩
  unfold Work.triggerEvent
  dsimp only
  generalize h1 : (if w.ch.stat.startSrc = some src then w.startEvent deaf else w) = w1
  have e1 : w1.burst = w.burst ∧ { w1.ch with
        startPending := w.ch.startPending, startRequest := w.ch.startRequest, startLatch := w.ch.startLatch,
        advLatch := w.ch.advLatch, updLatch := w.ch.updLatch } = w.ch := by
    rw [← h1]
    split
    · exact hs w
    · exact ⟨rfl, rfl⟩
  generalize h2 : (if w1.ch.stat.advSrc = some src then w1.advanceEvent else w1) = w2
  have e2 : w2.burst = w1.burst ∧ { w2.ch with
        startPending := w1.ch.startPending, startRequest := w1.ch.startRequest, startLatch := w1.ch.startLatch,
        advLatch := w1.ch.advLatch, updLatch := w1.ch.updLatch } = w1.ch := by
    rw [← h2]
    split
    · exact ha w1
    · exact ⟨rfl, rfl⟩
  have e3 : (if w2.ch.stat.updSrc = some src then w2.updateEvent else w2).burst = w2.burst ∧
      { (if w2.ch.stat.updSrc = some src then w2.updateEvent else w2).ch with
        startPending := w2.ch.startPending, startRequest := w2.ch.startRequest, startLatch := w2.ch.startLatch,
        advLatch := w2.ch.advLatch, updLatch := w2.ch.updLatch } = w2.ch := by
    split
    · exact hu w2
    · exact ⟨rfl, rfl⟩
  refine ⟨e3.1.trans (e2.1.trans e1.1), ?_⟩
  have f2 := congrArg (fun k : Chan => { k with
        startPending := w.ch.startPending, startRequest := w.ch.startRequest, startLatch := w.ch.startLatch,
        advLatch := w.ch.advLatch, updLatch := w.ch.updLatch }) e2.2
  have f3 := congrArg (fun k : Chan => { k with
        startPending := w.ch.startPending, startRequest := w.ch.startRequest, startLatch := w.ch.startLatch,
        advLatch := w.ch.advLatch, updLatch := w.ch.updLatch }) e3.2
  exact f3.trans (f2.trans e1.2)

/-- A deaf start subscription does nothing (R124, R137). -/
@[simp] theorem Work.startEvent_deaf (w : Work) : w.startEvent true = w := rfl

/-- What one trigger event can change: channels and event sets. -/
theorem State.triggerBy_eq (s : State) (own : Option ChanId) (src : Source) :
    ∃ ks ps, s.triggerBy own src = { s with chans := ks, ports := ps } := by
  have h : ∀ (l : List ChanId) (t : State), ∃ ks ps,
      l.foldl (fun t c => t.putWork c
          ((t.work c).triggerEvent (decide (t.monitor.clock = .lost) || decide (own = some c)) src)) t
        = { t with chans := ks, ports := ps } := by
    intro l
    induction l with
    | nil => exact fun t => ⟨t.chans, t.ports, rfl⟩
    | cons c r ih =>
      intro t
      obtain ⟨ps, hp⟩ := t.putWork_eq c
        ((t.work c).triggerEvent (decide (t.monitor.clock = .lost) || decide (own = some c)) src)
      rw [((t.work c).triggerEvent_frame _ src).1] at hp
      rw [List.foldl_cons, hp]
      obtain ⟨ks, qs, h⟩ := ih { t with
        chans := t.chans.set c
          ((t.work c).triggerEvent (decide (t.monitor.clock = .lost) || decide (own = some c)) src).ch, ports := ps }
      exact ⟨ks, qs, h⟩
  exact h _ s

/-- The same of a trigger event that no channel's tick made. -/
theorem State.trigger_eq (s : State) (src : Source) :
    ∃ ks ps, s.trigger src = { s with chans := ks, ports := ps } := s.triggerBy_eq none src

/-- The same of the trigger event of a sync line. -/
theorem State.reach_eq (s : State) (e : SyncEvent) :
    ∃ ks ps, s.reach e = { s with chans := ks, ports := ps } := s.triggerBy_eq _ _

/-- Line changes delivered outside a tick can change channels and event sets. -/
theorem State.deliverLines_eq (before after : State) :
    ∃ ks ps, before.deliverLines after = { after with chans := ks, ports := ps } := by
  have h : ∀ (l : List (Fin 4)) (t : State), ∃ ks ps,
      l.foldl (fun t x => t.trigger (.syn x)) t = { t with chans := ks, ports := ps } := by
    intro l
    induction l with
    | nil => exact fun t => ⟨t.chans, t.ports, rfl⟩
    | cons x r ih =>
      intro t
      obtain ⟨ks, ps, h⟩ := t.trigger_eq (.syn x)
      rw [List.foldl_cons, h]
      obtain ⟨ks', ps', h'⟩ := ih { t with chans := ks, ports := ps }
      exact ⟨ks', ps', h'⟩
  exact h _ after

/-! ### Grants -/

/-- What a grant decision can change: the burst in flight, one channel's cursor and target, and the arbiter. -/
theorem State.arbitrate_eq (s : State) :
    ∃ b ks a, s.arbitrate = { s with burst := b, chans := ks, arb := a } := by
  unfold State.arbitrate
  split
  · exact ⟨s.burst, s.chans, s.arb, rfl⟩
  · split
    · exact ⟨s.burst, s.chans, s.arb, rfl⟩
    · rename_i r _
      cases r with
      | fetcher c =>
        dsimp only [State.grantFetch]
        split
        · exact ⟨_, _, _, rfl⟩
        · split <;> exact ⟨_, _, _, rfl⟩
      | loadUnit p =>
        dsimp only [State.grantLoad]
        split
        · split <;> exact ⟨_, _, _, rfl⟩
        · split <;> exact ⟨_, _, _, rfl⟩

/-- Of a channel, a grant decision can change the cursor and the pending target only. -/
theorem State.arbitrate_chan (s : State) (d : ChanId) :
    { s.arbitrate.chan d with cursor := (s.chan d).cursor, target := (s.chan d).target } = s.chan d := by
  unfold State.arbitrate
  split
  · rfl
  · split
    · rfl
    · rename_i r _
      cases r with
      | fetcher c =>
        dsimp only [State.grantFetch]
        split
        · rfl
        · split
          · rfl
          · rename_i cur _ _ e _
            have h := State.setChan_chan s c d ((s.chan c).moveCursor cur
              (fetchBurst c (s.seg e.seg) e cur (s.chan c).fifo.length).count ((s.seg e.seg).length.getD 0))
            by_cases hd : d = c
            · subst hd
              rw [if_pos rfl] at h
              exact (congrArg (fun k : Chan =>
                { k with cursor := (s.chan d).cursor, target := (s.chan d).target }) h).trans
                  (Chan.moveCursor_frame _ _ _ _)
            · rw [if_neg hd] at h
              exact congrArg (fun k : Chan =>
                { k with cursor := (s.chan d).cursor, target := (s.chan d).target }) h
      | loadUnit p =>
        dsimp only [State.grantLoad]
        split
        · split <;> rfl
        · split <;> rfl

@[simp] theorem State.arbitrate_pending (s : State) : s.arbitrate.pending = s.pending := by
  obtain ⟨_, _, _, h⟩ := s.arbitrate_eq
  rw [h]

@[simp] theorem State.arbitrate_resetHeld (s : State) : s.arbitrate.resetHeld = s.resetHeld := by
  obtain ⟨_, _, _, h⟩ := s.arbitrate_eq
  rw [h]

@[simp] theorem State.arbitrate_resets (s : State) : s.arbitrate.resets = s.resets := by
  obtain ⟨_, _, _, h⟩ := s.arbitrate_eq
  rw [h]

@[simp] theorem State.arbitrate_mem (s : State) : s.arbitrate.mem = s.mem := by
  obtain ⟨_, _, _, h⟩ := s.arbitrate_eq
  rw [h]

@[simp] theorem State.arbitrate_pages (s : State) : s.arbitrate.pages = s.pages := by
  obtain ⟨_, _, _, h⟩ := s.arbitrate_eq
  rw [h]

@[simp] theorem State.arbitrate_freeList (s : State) : s.arbitrate.freeList = s.freeList := by
  obtain ⟨_, _, _, h⟩ := s.arbitrate_eq
  rw [h]

@[simp] theorem State.arbitrate_retired (s : State) : s.arbitrate.retired = s.retired := by
  obtain ⟨_, _, _, h⟩ := s.arbitrate_eq
  rw [h]

@[simp] theorem State.arbitrate_segs (s : State) : s.arbitrate.segs = s.segs := by
  obtain ⟨_, _, _, h⟩ := s.arbitrate_eq
  rw [h]

@[simp] theorem State.arbitrate_loads (s : State) : s.arbitrate.loads = s.loads := by
  obtain ⟨_, _, _, h⟩ := s.arbitrate_eq
  rw [h]

@[simp] theorem State.arbitrate_claims (s : State) : s.arbitrate.claims = s.claims := by
  obtain ⟨_, _, _, h⟩ := s.arbitrate_eq
  rw [h]

@[simp] theorem State.arbitrate_monitor (s : State) : s.arbitrate.monitor = s.monitor := by
  obtain ⟨_, _, _, h⟩ := s.arbitrate_eq
  rw [h]

@[simp] theorem State.arbitrate_ticks (s : State) : s.arbitrate.ticks = s.ticks := by
  obtain ⟨_, _, _, h⟩ := s.arbitrate_eq
  rw [h]

@[simp] theorem State.arbitrate_judged (s : State) : s.arbitrate.judged = s.judged := by
  obtain ⟨_, _, _, h⟩ := s.arbitrate_eq
  rw [h]

@[simp] theorem State.arbitrate_modes (s : State) : s.arbitrate.modes = s.modes := by
  obtain ⟨_, _, _, h⟩ := s.arbitrate_eq
  rw [h]

@[simp] theorem State.arbitrate_syncEvents (s : State) : s.arbitrate.syncEvents = s.syncEvents := by
  obtain ⟨_, _, _, h⟩ := s.arbitrate_eq
  rw [h]

@[simp] theorem State.arbitrate_drivers (s : State) : s.arbitrate.drivers = s.drivers := by
  obtain ⟨_, _, _, h⟩ := s.arbitrate_eq
  rw [h]

@[simp] theorem State.arbitrate_ports (s : State) : s.arbitrate.ports = s.ports := by
  obtain ⟨_, _, _, h⟩ := s.arbitrate_eq
  rw [h]

/-! ### Output ticks -/

/-- An event of one channel with the line changes it makes in a tick. -/
theorem State.noteWork_eq (s : State) (c : ChanId) (w : Work) :
    ∃ ks ps b y, s.noteLines c (s.putWork c w) = { s with chans := ks, ports := ps, burst := b, syncEvents := y } := by
  obtain ⟨ps, h⟩ := s.putWork_eq c w
  rw [h]
  exact ⟨_, _, _, _, rfl⟩

/-- What one channel's output tick can change: channels, event sets, the burst in flight, line events, the tick record and
the arbiter. -/
theorem State.tickOne_eq (s : State) (c : ChanId) :
    ∃ ks ps b y k a, s.tickOne c =
      { s with chans := ks, ports := ps, burst := b, syncEvents := y, ticks := k, arb := a } := by
  unfold State.tickOne
  dsimp only
  obtain ⟨ks, ps, b, y, h⟩ := s.noteWork_eq c ((s.work c).tickWord s.segs (s.contribution (partner c))).1
  rw [h]
  generalize hu : ({ s with chans := ks, ports := ps, burst := b, syncEvents := y } : State) = u
  obtain ⟨ks', ps', b', y', h'⟩ := u.noteWork_eq c
    ((u.work c).tickEnd u.segs c ((s.work c).tickWord s.segs (s.contribution (partner c))).2)
  rw [h']
  obtain ⟨b2, ks2, a2, h2⟩ := State.arbitrate_eq (State.setTick
    { u with chans := ks', ports := ps', burst := b', syncEvents := y' } c (.done (s.contribution c)))
  rw [h2, ← hu]
  exact ⟨_, _, _, _, _, _, rfl⟩

/-- The same of several ticks taken one after another. -/
theorem State.foldl_tickOne_eq (l : List ChanId) (s : State) :
    ∃ ks ps b y k a, l.foldl State.tickOne s =
      { s with chans := ks, ports := ps, burst := b, syncEvents := y, ticks := k, arb := a } := by
  induction l generalizing s with
  | nil => exact ⟨s.chans, s.ports, s.burst, s.syncEvents, s.ticks, s.arb, rfl⟩
  | cons c r ih =>
    obtain ⟨ks, ps, b, y, k, a, h⟩ := s.tickOne_eq c
    rw [List.foldl_cons, h]
    obtain ⟨ks', ps', b', y', k', a', h'⟩ :=
      ih { s with chans := ks, ports := ps, burst := b, syncEvents := y, ticks := k, arb := a }
    exact ⟨ks', ps', b', y', k', a', h'⟩

/-- The same of a tick with those that coincide with it. -/
theorem State.tickChannel_eq (s : State) (c : ChanId) :
    ∃ ks ps b y k a, s.tickChannel c =
      { s with chans := ks, ports := ps, burst := b, syncEvents := y, ticks := k, arb := a } :=
  State.foldl_tickOne_eq (c :: s.coincident c) s

/-- The channels whose ticks coincide with a channel's are the others, due, with its divider. -/
@[simp]
theorem State.mem_coincident (s : State) (c d : ChanId) :
    d ∈ s.coincident c ↔
      d ≠ c ∧ s.tickOf d = .due ∧ (s.chan d).stat.divider = (s.chan c).stat.divider := by
  simp [State.coincident, State.isDue, and_assoc]

/-- What the completion of an SCLK edge's ticks can change. -/
theorem State.finishTicks_eq (s : State) :
    ∃ ks ps b y k a, s.finishTicks =
      { s with chans := ks, ports := ps, burst := b, syncEvents := y, ticks := k, arb := a } := by
  have h : ∀ (l : List ChanId) (t : State), ∃ ks ps b y k a,
      l.foldl (fun t c => if t.isDue c then t.tickOne c else t) t
        = { t with chans := ks, ports := ps, burst := b, syncEvents := y, ticks := k, arb := a } := by
    intro l
    induction l with
    | nil => exact fun t => ⟨t.chans, t.ports, t.burst, t.syncEvents, t.ticks, t.arb, rfl⟩
    | cons c r ih =>
      intro t
      rw [List.foldl_cons]
      split
      · obtain ⟨ks, ps, b, y, k, a, h⟩ := t.tickOne_eq c
        rw [h]
        obtain ⟨ks', ps', b', y', k', a', h'⟩ :=
          ih { t with chans := ks, ports := ps, burst := b, syncEvents := y, ticks := k, arb := a }
        exact ⟨ks', ps', b', y', k', a', h'⟩
      · exact ih t
  exact h _ s

/-- With no tick due there is nothing to complete. -/
theorem State.finishTicks_of_none_due (s : State) (h : ∀ c, s.tickOf c ≠ .due) : s.finishTicks = s := by
  have h' : ∀ l : List ChanId, l.foldl (fun t c => if t.isDue c then t.tickOne c else t) s = s := by
    intro l
    induction l with
    | nil => rfl
    | cons c r ih =>
      rw [List.foldl_cons, if_neg (by simp [State.isDue, h c])]
      exact ih
  exact h' _

end Sys2Proof.Machine
end

