-- ==== Sys2Proof/Tests/Slice0.lean ====
section
/-! SUPPORT. The model's own tests: ill-formed commands refused, frames read byte by byte, single steps on small states, and
for each statement with hypotheses a state and operands that meet them together. -/

namespace Sys2Proof.Tests

open Sys2Proof.Machine

set_option Elab.async false

/-! ### Well-formedness -/

theorem test_wf_refuses_151_samples :
    (Instr.loadData .a (List.replicate 151 0#16)).wf = false ∧ (Instr.loadData .a (List.replicate 150 0#16)).wf = true := by
  decide +kernel

theorem test_wf_refuses_bad_frame_without_bytes : (Instr.badFrame .a []).wf = false := by decide +kernel

theorem test_wf_refuses_bad_frame_that_is_a_read : (Instr.badFrame .a [0xC3#8, 0#8]).wf = false := by decide +kernel

/-- The frame of IDENTIFY passes every check, so it is no BAD_FRAME. -/
theorem test_wf_refuses_bad_frame_that_passes :
    (Instr.badFrame .a [0xA5#8, 0x01#8, 0x00#8, 0x00#8, 0xFB#8, 0xAC#8]).wf = false
      ∧ (Instr.badFrame .a [0xA5#8, 0x01#8, 0x00#8, 0x00#8, 0xFB#8, 0xAD#8]).wf = true := by decide +kernel

theorem test_wf_refuses_upset_outside_the_store :
    (Instr.fetchBurstComplete [⟨524288, ⟨1#16, false⟩⟩]).wf = false
      ∧ (Instr.fetchBurstComplete [⟨524287, ⟨1#16, false⟩⟩]).wf = true := by decide +kernel

theorem test_wf_refuses_upset_of_no_bit :
    (Instr.readbackBurstComplete [⟨0, ⟨0#16, false⟩⟩]).wf = false
      ∧ (Instr.readbackBurstComplete [⟨0, ⟨0#16, true⟩⟩]).wf = true := by decide +kernel

/-! ### Frames -/

/-- The CRC of the characters 123456789 (10.4). -/
theorem test_crc_check_value :
    crc16 [0x31#8, 0x32#8, 0x33#8, 0x34#8, 0x35#8, 0x36#8, 0x37#8, 0x38#8, 0x39#8] = 0x29B1#16 := by decide +kernel

theorem test_frame_identify :
    decodeFrame .b [0xA5#8, 0x01#8, 0x00#8, 0x00#8, 0xFB#8, 0xAC#8] = .ok (.identify .b) := by decide +kernel

/-- Segment 0Ch, 300 samples, SHARED, label 77. -/
theorem test_frame_open_load :
    decodeFrame .a [0xA5#8, 0x10#8, 0x00#8, 0x09#8, 0x0C#8, 0x00#8, 0x00#8, 0x01#8, 0x2C#8, 0x01#8, 0x01#8, 0x00#8,
      0x4D#8, 0x3D#8, 0x65#8] = .ok (.openLoad .a 0x0C#8 300#32 0x01#8 (some 77#16)) := by decide +kernel

theorem test_frame_put_entry :
    decodeFrame .a [0xA5#8, 0x20#8, 0x00#8, 0x08#8, 0x02#8, 0x01#8, 0x3D#8, 0x00#8, 0x01#8, 0x02#8, 0x05#8, 0xFF#8,
      0xF8#8, 0x53#8]
      = .ok (.putEntry .a 2#8 1#8 ⟨0x3D#8, 1#16, 2#8, true, false, true, false, 0xFF#8⟩) := by decide +kernel

theorem test_frame_claim :
    decodeFrame .a [0xA5#8, 0x28#8, 0x00#8, 0x03#8, 0x03#8, 0x01#8, 0x00#8, 0xC7#8, 0xE7#8]
      = .ok (.claim .a 3#8 true false) := by decide +kernel

/-- Channel 0, point TRIGGER, gain -16384 in 32 bits, nothing else. -/
theorem test_frame_set_live :
    decodeFrame .a [0xA5#8, 0x31#8, 0x00#8, 0x0C#8, 0x00#8, 0x01#8, 0x03#8, 0x01#8, 0xFF#8, 0xFF#8, 0xC0#8, 0x00#8,
      0x00#8, 0x00#8, 0x00#8, 0x00#8, 0x30#8, 0xFD#8]
      = .ok (.setLive .a 0#8 (some 3#8) ⟨some 0xFFFFC000#32, none, none, none, none⟩) := by decide +kernel

theorem test_frame_load_data :
    decodeFrame .b [0xA5#8, 0x11#8, 0x00#8, 0x04#8, 0xFF#8, 0xFF#8, 0x80#8, 0x00#8, 0x68#8, 0x8A#8]
      = .ok (.loadData .b [0xFFFF#16, 0x8000#16]) := by decide +kernel

theorem test_frame_set_sync_driver :
    decodeFrame .a [0xA5#8, 0x42#8, 0x00#8, 0x04#8, 0x01#8, 0x01#8, 0x00#8, 0x01#8, 0x94#8, 0x62#8]
      = .ok (.setSyncDriver .a 1#8 (some ⟨0#8, 1#8⟩)) := by decide +kernel

theorem test_frame_set_event_enable :
    decodeFrame .a [0xA5#8, 0x48#8, 0x00#8, 0x02#8, 0x7F#8, 0xFF#8, 0x6A#8, 0xBE#8]
      = .ok (.setEventEnable .a 0x7FFF#15) := by decide +kernel

/-- Bit 15 of an event-kind word is 0 (R176). -/
theorem test_frame_bit_15_has_the_wrong_shape :
    decodeFrame .a [0xA5#8, 0x48#8, 0x00#8, 0x02#8, 0x80#8, 0x00#8, 0x77#8, 0xB1#8] = .error .badShape := by decide +kernel

theorem test_frame_flag_of_2_has_the_wrong_shape :
    decodeFrame .a [0xA5#8, 0x28#8, 0x00#8, 0x03#8, 0x03#8, 0x02#8, 0x00#8, 0x92#8, 0xB4#8] = .error .badShape := by
  decide +kernel

theorem test_frame_spare_byte_has_the_wrong_shape :
    decodeFrame .a [0xA5#8, 0x02#8, 0x00#8, 0x01#8, 0x00#8, 0x5A#8, 0x99#8] = .error .badShape := by decide +kernel

theorem test_frame_unknown_code :
    decodeFrame .a [0xA5#8, 0x04#8, 0x00#8, 0x00#8, 0x10#8, 0x5C#8] = .error .unknownCommand := by decide +kernel

theorem test_frame_of_5_bytes_refused :
    decodeFrame .a [0xA5#8, 0x01#8, 0x00#8, 0x00#8, 0xFB#8] = .error .badFrame := by decide +kernel

theorem test_response_identify :
    (Response.mk 0x01#8 .ok 0#8
        [0x4B#8, 0x21#8, 0x85#8, 0x40#8, 0x01#8, 0x08#8, 0x00#8, 0x01#8, 0x00#8, 0x08#8] 0).bytes
      = [0x5A#8, 0x01#8, 0x00#8, 0x00#8, 0x00#8, 0x0A#8, 0x4B#8, 0x21#8, 0x85#8, 0x40#8, 0x01#8, 0x08#8, 0x00#8, 0x01#8,
         0x00#8, 0x08#8, 0xBE#8, 0x25#8] := by decide +kernel

/-! ### Small states -/

/-- The state after a command, where it answers a next one. -/
def after (i : Instr) (s : State) : State :=
  match exec i s with
  | .next t => t
  | _ => s

/-- The status of the response that waits on port a. -/
def statusA (s : State) : Option Status := (s.port .a).unread.map Response.status

/-- Port a controls every channel and the clock is present. -/
def ours : State := { State.reset with
  claims := Vector.replicate 8 ⟨some .a, false⟩
  monitor := ⟨.present, 0, 0, 0, true⟩ }

/-- A READY segment of 16 samples in page 0, named once. -/
def ready16 : SegRec := ⟨.ready, some .a, some .ownerOnly, some 16, some 16, [0], 1, false, none⟩

/-- One pass of segment 1, forward, with the MK1 flag. -/
def once : Entry := ⟨1, 1#16, .forward, false, false, true, false, none⟩

/-- Channel 0 with a list of one entry. -/
def listed : State := (ours.setSeg 1 ready16).setChan 0 { Chan.reset with list := [once] }

/-- Channel 0 as given, its tick due. -/
def ticking (k : Chan) : State := (listed.setChan 0 k).setTick 0 .due

/-- Channel 0 in play at position 0.5 with its first two samples fetched. -/
def runningChan : Chan := { Chan.reset with
  state := .running
  list := [once]
  pos := 32768
  fifo := [⟨1000#16, 0, 0#16, 0, false⟩, ⟨2001#16, 0, 0#16, 1, false⟩] }

/-- A load of 20 samples open on port a with two samples in the buffer. -/
def loading : State :=
  (State.reset.setSeg 1 ⟨.loading, some .a, some .shared, some 20, none, [0], 0, false, none⟩).setLoad .a
    ⟨.opened, some 1, 2, 0, [7#16, 8#16], false, none⟩

/-- The same, its write burst in flight. -/
def draining : State := { loading with burst := some (drainBurst .a (loading.seg 1) (loading.loadUnit .a)) }

/-- The write position at the last slot of a page: the burst is one slot. -/
def drainingAtPageEnd : State :=
  let s := (loading.setSeg 1 ⟨.loading, some .a, some .shared, some 300, none, [0, 1], 0, false, none⟩).setLoad .a
    ⟨.opened, some 1, 257, 255, [7#16, 8#16], false, none⟩
  { s with burst := some (drainBurst .a (s.seg 1) (s.loadUnit .a)) }

/-- A readback of three written slots by port a, its burst in flight. -/
def reading : State :=
  let s := ((listed.setLoad .a { LoadUnit.empty with readback := some ⟨1, 0, 0, 3, [], [], false, .live⟩ }).setPort .a
    { PortRec.reset with proto := .executing })
  { s with
    mem := [(0, writtenSlot 5#16), (1, ⟨6#16, true⟩), (2, writtenSlot 7#16)]
    burst := some (readBurst .a (s.seg 1) ⟨1, 0, 0, 3, [], [], false, .live⟩) }

/-! ### Single steps -/

theorem test_identify :
    ((after (.identify .a) State.reset).port .a).unread = some ⟨0x01#8, .ok, 0#8,
      [0x4B#8, 0x21#8, 0x85#8, 0x40#8, 0x01#8, 0x08#8, 0x00#8, 0x01#8, 0x00#8, 0x08#8], 0⟩ := by decide +kernel

theorem test_open_load_takes_two_pages :
    let t := after (.openLoad .a 9#8 257#32 1#8 none) State.reset
    statusA t = some .ok ∧ (t.seg 9).pages = [0, 1] ∧ t.freeList.head? = some 2 ∧ (t.page 1).state = .held := by
  decide +kernel

theorem test_open_load_refuses_15_samples :
    statusA (after (.openLoad .a 9#8 15#32 1#8 none) State.reset) = some .badArgument := by decide +kernel

theorem test_load_data_busy : statusA (after (.loadData .a [1#16]) loading) = some .busy := by decide +kernel

theorem test_load_data_oversize :
    let s := loading.setLoad .a ⟨.opened, some 1, 19, 19, [], false, none⟩
    let t := after (.loadData .a [1#16, 2#16]) s
    statusA t = some .oversize ∧ (t.loadUnit .a).buffer = [1#16] ∧ (t.loadUnit .a).received = 20 := by decide +kernel

theorem test_close_load_too_short :
    let t := after (.closeLoad .a) (loading.setLoad .a ⟨.opened, some 1, 15, 15, [], false, none⟩)
    statusA t = some .tooShort ∧ t.seg 1 = SegRec.freed := by decide +kernel

theorem test_close_load_short :
    let t := after (.closeLoad .a) (loading.setLoad .a ⟨.opened, some 1, 16, 16, [], false, none⟩)
    statusA t = some .short ∧ (t.seg 1).length = some 16 ∧ (t.seg 1).pages = [0] := by decide +kernel

theorem test_abort_load_pending :
    let t := after (.abortLoad .a) draining
    (t.port .a).unread.map Response.payload = some [1#8] ∧ (t.loadUnit .a).phase = .aborting := by decide +kernel

theorem test_drain_burst_writes_its_slots :
    let t := after .drainBurstComplete draining
    t.mem = [(0, writtenSlot 7#16), (1, writtenSlot 8#16)] ∧ (t.loadUnit .a).wpos = 2 ∧ (t.loadUnit .a).buffer = [] := by
  decide +kernel

theorem test_drain_burst_stops_at_the_page_end :
    let t := after .drainBurstComplete drainingAtPageEnd
    t.mem = [(255, writtenSlot 7#16)] ∧ t.burst.map Burst.page = some 1 ∧ t.burst.map Burst.first = some 0 := by
  decide +kernel

theorem test_delete_segment_named_once :
    let t := after (.deleteSegment .a 1#8) listed
    (t.seg 1).state = .doomed ∧ (t.port .a).unread.map Response.payload = some [1#8, 3#8, 0#8, 1#8] := by decide +kernel

theorem test_set_visibility_not_owner :
    ((after (.setVisibility .b 1#8 1#8) listed).port .b).unread.map Response.status = some .notOwner := by decide +kernel

theorem test_readback_answers_with_a_suspect_sample :
    let t := after (.readbackBurstComplete []) reading
    statusA t = some .dataSuspect
      ∧ (t.port .a).unread.map Response.payload
          = some ([1#8, 0#8, 0#8, 3#8, 0#8, 5#8, 0#8, 6#8, 0#8, 7#8, 0x40#8] ++ List.replicate 15 0#8)
      ∧ (t.page 0).suspect = true := by decide +kernel

theorem test_read_segment_executes :
    let t := after (.readSegment .a 1#8 10#16 20#8) listed
    (t.port .a).proto = .executing ∧ (t.burst.map Burst.count = some 6) := by decide +kernel

theorem test_put_entry_appends :
    let t := after (.putEntry .a 0#8 1#8 ⟨1#8, 2#16, 1#8, false, true, false, false, 0#8⟩) listed
    (t.chan 0).list = [once, ⟨1, 2#16, .reverse, false, true, false, false, some 0⟩] ∧ (t.seg 1).refs = 2 := by
  decide +kernel

theorem test_put_entry_badIndex :
    statusA (after (.putEntry .a 0#8 2#8 ⟨1#8, 2#16, 1#8, false, true, false, false, 0#8⟩) listed) = some .badIndex := by
  decide +kernel

/-- The last entry that names a DOOMED segment frees it, and its owner is told. -/
theorem test_trim_list_frees_a_doomed_segment :
    let t := after (.trimList .a 0#8 0#8) (listed.setSeg 1 { ready16 with state := .doomed })
    t.seg 1 = SegRec.freed ∧ (t.port .a).events = [⟨.device, .segmentFreed, .segment 1, false⟩] := by decide +kernel

theorem test_claim_takes_a_yieldable_channel :
    let s := State.reset.setClaim 3 ⟨some .b, true⟩
    let t := after (.claim .a 8#8 false true) s
    t.claimOf 3 = ⟨some .a, false⟩ ∧ (t.port .b).events = [⟨.chan 3, .claimLost, .nothing, false⟩] := by decide +kernel

theorem test_release : (after (.release .a 1#8) ours).claimOf 0 = ⟨none, false⟩ := by decide +kernel

theorem test_set_static_clamps_the_divider :
    let t := after (.setStatic .a 0#8 ⟨some 0#16, none, none, none, some 100#16, none, none, none, none, some 9#8⟩) ours
    statusA t = some .clamped ∧ (t.chan 0).stat.divider = 1 ∧ (t.chan 0).lane = 32868#16
      ∧ (t.chan 0).stat.updSrc = some (.soft .b) := by decide +kernel

theorem test_set_live_outside_play :
    ((after (.setLive .a 0#8 (some 0#8) ⟨some 40000#32, none, none, none, none⟩) ours).chan 0).live.gain = 32767#16 := by
  decide +kernel

theorem test_apply_group :
    let k := { runningChan with staged := { PendingRec.empty with gain := some 0#16, point := some .pass } }
    ((after (.applyGroup .a 1#8) (listed.setChan 0 k)).chan 0).staged.group = true := by decide +kernel

theorem test_arm_starts_prefill :
    let t := after (.arm .a 0#8) listed
    (t.chan 0).state = .arming ∧ t.burst.map Burst.count = some 16 ∧ (t.chan 0).cursor = none := by decide +kernel

theorem test_arm_empty_list :
    ((after (.arm .a 1#8) listed).port .a).unread.map Response.payload = some [1#8, 1#8, 0#8] := by decide +kernel

theorem test_disarm :
    ((after (.disarm .a 0#8) (listed.setChan 0 { runningChan with state := .armed })).chan 0).state = .idle := by
  decide +kernel

theorem test_start :
    ((after (.start .a 1#8) (listed.setChan 0 { runningChan with state := .armed })).chan 0).startPending = true := by
  decide +kernel

theorem test_stop_at_pass :
    let t := after (.stop .a 1#8 1#8) (listed.setChan 0 runningChan)
    (t.chan 0).state = .stopping ∧ (t.chan 0).stop = some .atPass := by decide +kernel

theorem test_jump_stored : ((after (.jump .a 0#8 0#8) (listed.setChan 0 runningChan)).chan 0).jump = some 0 := by
  decide +kernel

theorem test_clear_fault :
    let k := { runningChan with state := .halted, fault := some ⟨.starved, 0, 0#16, 5, .running⟩, consec := 3 }
    let t := after (.clearFault .a 0#8) (listed.setChan 0 k)
    (t.chan 0).state = .idle ∧ (t.chan 0).fault = none ∧ (t.chan 0).consec = 0 := by decide +kernel

/-- Halfway between 1000 and 2001: 1500.5 goes up to 1501 (R92). -/
theorem test_output_tick_interpolates :
    let t := after (.outputTick 0) (ticking runningChan)
    (t.chan 0).out = 1501#16 ∧ (t.chan 0).lane = 34269#16 ∧ (t.chan 0).pos = 98304 := by decide +kernel

theorem test_output_tick_underruns :
    let t := after (.outputTick 0) (ticking { runningChan with fifo := [] })
    (t.chan 0).underrun = true ∧ (t.chan 0).totalUnder = 1 ∧ (t.chan 0).pos = 32768 := by decide +kernel

theorem test_starved_halts :
    let t := after (.starved 0) (ticking { runningChan with fifo := [], consec := 2 })
    (t.chan 0).state = .halted ∧ (t.chan 0).fault = some ⟨.starved, 0, 0#16, 0, .running⟩ := by decide +kernel

/-- The last tick of the only pass: the list is done, the channel IDLE, at the idle level on the tick after. -/
theorem test_output_tick_ends_the_list :
    let k := { runningChan with pos := 15 * 65536, fifo := [⟨9#16, 0, 0#16, 15, true⟩] }
    let t := after (.outputTick 0) (ticking k)
    (t.chan 0).state = .idle ∧ (t.chan 0).out = 9#16 ∧ (t.port .b).events.map EventEntry.kind = [.listDone] := by
  decide +kernel

theorem test_marker_pulse_ends :
    let k := { runningChan with mk1 := { Marker.reset with mode := .entry, active := true } }
    ((after (.markerPulseEnd 0 .mk1) (ticking k)).chan 0).mk1.active = false := by decide +kernel

theorem test_sclk_edge_of_a_divided_channel :
    let s := ours.setChan 0 { Chan.reset with stat := { Chan.reset.stat with divider := 2 } }
    let t := after .sclkRisingEdge s
    t.tickOf 0 = .noTick ∧ t.tickOf 1 = .due ∧ t.monitor.align = 1 := by decide +kernel

theorem test_clock_lost_halts_play :
    let t := after .clockLost (listed.setChan 0 runningChan)
    (t.chan 0).state = .halted ∧ (t.chan 0).fault.map FaultRec.cause = some .clockLost
      ∧ (t.port .a).events.map EventEntry.kind = [.fault, .clockLost] := by decide +kernel

theorem test_clock_restored : (after .clockRestored State.reset).monitor.clock = .present := by decide +kernel

theorem test_run_length_reset :
    (after .runLengthReset { State.reset with monitor := ⟨.lost, 49999, 0, 3, true⟩ }).monitor.runLength = 0 := by
  decide +kernel

theorem test_fetch_burst_fills_the_fifo :
    let s := { listed.setChan 0 { runningChan with state := .arming, fifo := [] } with
      mem := [(0, writtenSlot 5#16), (1, writtenSlot 6#16)]
      burst := some ⟨.fetcher 0, false, 0, 0, true, 2, [], true, some ⟨1, 0, 0#16, 14, 16⟩⟩ }
    let t := after (.fetchBurstComplete []) s
    (t.chan 0).fifo = [⟨5#16, 0, 0#16, 14, false⟩, ⟨6#16, 0, 0#16, 15, true⟩] ∧ (t.chan 0).state = .armed := by
  decide +kernel

theorem test_trigger_starts :
    let k := { runningChan with state := .armed, stat := { Chan.reset.stat with startSrc := some (.trg 2) } }
    let s := { listed.setChan 0 k with modes := Vector.replicate 8 .rising }
    ((after (.trgEdge 2 true) s).chan 0).startPending = true := by decide +kernel

theorem test_judged_level_falls_unheard :
    let s := { ours with modes := Vector.replicate 8 .rising, judged := Vector.replicate 4 true }
    (after (.judgedLevelChange 1 false) s).judged.get 1 = false := by decide +kernel

theorem test_sync_line_event_is_taken : (after (.syncLineEdge 2) { ours with syncEvents := [⟨1, 0⟩, ⟨2, 0⟩] }).syncEvents = [⟨1, 0⟩] := by
  decide +kernel

theorem test_set_source_edge_tells_the_other_port :
    let t := after (.setSourceEdge .a 4#8 (some 3#8)) ours
    t.modes.get 4 = .both ∧ (t.port .b).events = [⟨.device, .sharedChanged, .source 4, false⟩] := by decide +kernel

theorem test_set_marker :
    ((after (.setMarker .a 0#8 1#8 ⟨some 1#8, some 0#16, some 1#8, none⟩) ours).chan 0).mk2
      = ⟨.entry, 1, .inverted, 0, false, 0⟩ := by decide +kernel

theorem test_set_sync_driver :
    (after (.setSyncDriver .a 3#8 (some ⟨7#8, 1#8⟩)) ours).drivers.get 3 = some (7, .mk2) := by decide +kernel

theorem test_fire_names_its_subscribers :
    let k := { runningChan with stat := { Chan.reset.stat with advSrc := some (.soft .a) } }
    let t := after (.fire .a) (listed.setChan 0 k)
    (t.port .a).unread.map Response.payload = some [8#8, 0#8, 1#8, 0#8] ∧ (t.chan 0).advLatch = true := by decide +kernel

theorem test_take_events :
    let s := State.reset.setPort .a { PortRec.reset with events := [⟨.chan 1, .clip, .nothing, true⟩] }
    let t := after (.takeEvents .a) s
    (t.port .a).events = [] ∧ (t.port .a).unread.map Response.payload = some [1#8, 0#8, 1#8, 0x87#8, 0#8] := by
  decide +kernel

theorem test_set_event_enable_raises_attn :
    let s := State.reset.setPort .a { PortRec.reset with events := [⟨.chan 1, .clip, .nothing, true⟩] }
    let t := after (.setEventEnable .a 0x80#15) s
    attn t.resetHeld (t.port .a) = true ∧ (after (.setEventEnable .a 0x40#15) s).port .a ≠ t.port .a := by decide +kernel

theorem test_overrun_in_executing :
    ((after (.overrun .a) reading).port .a).overrun = true ∧ ((after (.identify .a) reading).port .a).unread = none := by
  decide +kernel

theorem test_bad_frame_echoes_the_second_byte :
    ((after (.badFrame .a [0xA5#8, 0x77#8]) State.reset).port .a).unread = some ⟨0x77#8, .badFrame, 0#8, [], 0⟩ := by
  decide +kernel

theorem test_read_transaction_completes :
    let t := after (.readTransaction .a 20) (after (.identify .a) State.reset)
    (t.port .a).proto = .idle ∧ (t.port .a).lastOut.take 3 = [0x5A#8, 0x01#8, 0x00#8]
      ∧ (t.port .a).lastOut.drop 18 = [0#8, 0#8] := by decide +kernel

theorem test_read_transaction_cut_short :
    ((after (.readTransaction .a 17) (after (.identify .a) State.reset)).port .a).proto = .ready := by decide +kernel

theorem test_device_reset_and_release :
    (after .deviceReset reading).resetHeld = true
      ∧ (after (.resetRelease 0b1010#4) { State.reset with resetHeld := true }).judged.get 1 = true := by decide +kernel

theorem test_port_reset_releases_the_channels :
    let t := after (.portReset .a) ours
    t.claimOf 0 = ⟨none, false⟩ ∧ (t.port .a).prstHeld = true
      ∧ ((after (.prstRelease .a) t).port .a).prstHeld = false := by decide +kernel

theorem test_reset_port_command :
    statusA (after (.resetPort .a) ours) = some .ok ∧ (after (.resetPort .a) ours).claimOf 7 = ⟨none, false⟩ := by
  decide +kernel

theorem test_head_run : headRun [3, 4, 5, 9] = 3 ∧ headRun [] = 0 := by decide +kernel

theorem test_query_store_at_reset :
    ((after (.queryStore .a) State.reset).port .a).unread.map Response.payload
      = some [8#8, 0#8, 0#8, 0#8, 0#8, 0#8, 1#8, 0#8, 0#8, 0#8, 0#8, 0#8, 0#8, 8#8, 0#8] := by decide +kernel

theorem test_query_segment_of_a_free_slot : statusA (after (.querySegment .a 200#8) State.reset) = some .ok := by
  decide +kernel

/-- Owner A is 01h behind its presence byte; controllers A and NONE are 01h and 00h (R173). -/
theorem test_reports_name_the_ports :
    (listed.segmentReport 1).take 4 = [1#8, 2#8, 1#8, 1#8] ∧ (listed.channelReport 0).take 3 = [0#8, 0#8, 1#8]
      ∧ (State.reset.channelReport 0).take 3 = [0#8, 0#8, 0#8] := by decide +kernel

theorem test_queries_of_channel_8 :
    statusA (after (.queryEntry .a 8#8 0#8) listed) = some .badArgument
      ∧ statusA (after (.queryList .a 8#8) listed) = some .badArgument
      ∧ statusA (after (.queryChannel .a 8#8) listed) = some .badArgument := by decide +kernel

/-! ### Witnesses: states and operands that meet the hypotheses of the statements -/

theorem ne_of_empty {α : Type} {o : Option α} (h : o = none) {r : α} (hr : r ∈ o) : False := by
  rw [h] at hr; cases hr

/-- A port law state: nothing EXECUTING, no readback. -/
theorem protocolLaw_of_no_readback {s : State}
    (h : ∀ p, ((s.port p).unread.isSome = decide ((s.port p).proto = .ready))
      ∧ (s.loadUnit p).readback = none ∧ (s.port p).proto ≠ .executing) : s.ProtocolLaw := fun p => by
  obtain ⟨h1, h2, h3⟩ := h p
  refine ⟨by rw [h1]; simp, by rw [h2]; simp [h3], fun r hr => (ne_of_empty h2 hr).elim⟩

theorem loadLaw_of_no_load {s : State} (h1 : ∀ i, (s.seg i).state ≠ .loading)
    (h2 : ∀ p, (s.loadUnit p).seg = none ∧ (s.loadUnit p).phase = .noLoad ∧ (s.loadUnit p).readback = none) :
    s.LoadLaw :=
  ⟨fun i h => (h1 i h).elim, fun p => by rw [(h2 p).1]; exact (h2 p).2.1,
    fun p _ hr => (ne_of_empty (h2 p).2.2 hr).elim⟩

/-- RefusedFrameAnswered: one frame for each of the three errors. -/
theorem test_premises_refused_frames :
    State.reset.Listening .a ∧ (0xA5#8 : Byte) ≠ 0xC3#8
      ∧ decodeFrame .a [0xA5#8] = .error .badFrame
      ∧ decodeFrame .a [0xA5#8, 0x04#8, 0x00#8, 0x00#8, 0x10#8, 0x5C#8] = .error .unknownCommand
      ∧ decodeFrame .a [0xA5#8, 0x02#8, 0x00#8, 0x01#8, 0x00#8, 0x5A#8, 0x99#8] = .error .badShape := by
  refine ⟨⟨?_, ?_, ?_⟩, ?_, ?_, ?_, ?_⟩ <;> decide +kernel

/-- FramesRoundTrip: the longest payload, and the largest words. -/
theorem test_premises_frames :
    (framePort (.loadData .a (List.replicate 150 0x8000#16)) = some .a
        ∧ (Instr.loadData .a (List.replicate 150 0x8000#16)).wf = true)
      ∧ (framePort (.setEventEnable .b 0x7FFF#15) = some .b ∧ (Instr.setEventEnable .b 0x7FFF#15).wf = true) := by
  decide +kernel

/-- FramesRoundTrip, the bits: the frame of IDENTIFY with three bits beyond its last byte, a read transaction of two bytes
after C3h, a frame that fails a check, and seven bits. -/
theorem test_premises_bits :
    let identify : List Byte := [0xA5#8, 0x01#8, 0x00#8, 0x00#8, 0xFB#8, 0xAC#8]
    transactionOf .b (bitsOfBytes identify ++ [true, false, true]) = some (.identify .b)
      ∧ bitsOfBytes [0xA5#8] = [true, false, true, false, false, true, false, true]
      ∧ transactionOf .b (bitsOfBytes [0xC3#8, 0xA5#8, 0x00#8] ++ [true]) = some (.readTransaction .b 2)
      ∧ decodeFrame .b [0xA5#8, 0x01#8] = .error .badFrame
      ∧ transactionOf .b (bitsOfBytes [0xA5#8, 0x01#8]) = some (.badFrame .b [0xA5#8, 0x01#8])
      ∧ transactionOf .b (List.replicate 7 true) = none := by decide +kernel

/-- FramesNotTaken, both clauses: EXECUTING, with the bytes that each kind of frame clocks; RESET held; PRST held. -/
theorem test_premises_frames_not_taken :
    (reading.resetHeld = false ∧ (reading.port .a).prstHeld = false ∧ (reading.port .a).proto = .executing
        ∧ framePort (.identify .a) = some .a ∧ [0xA5#8].head?.any (· ≠ 0xC3#8) = true
        ∧ ((after (.identify .a) reading).port .a).lastOut = List.replicate 6 0#8
        ∧ ((after (.badFrame .a [0xA5#8]) reading).port .a).lastOut = [0#8]
        ∧ ((after (.overrun .a) reading).port .a).lastOut = [0#8])
      ∧ (after .deviceReset ours).resetHeld = true ∧ ((after (.portReset .a) ours).port .a).prstHeld = true := by
  decide +kernel

/-- Every statement whose premises are that a port listens. -/
theorem test_premises_listening : (∀ p, State.reset.Listening p) ∧ (∀ p, listed.Listening p) ∧ loading.Listening .a
    ∧ (after (.identify .a) State.reset).Listening .a := by
  refine ⟨fun p => ?_, fun p => ?_, ⟨?_, ?_, ?_⟩, ⟨?_, ?_, ?_⟩⟩
  · cases p <;> refine ⟨?_, ?_, ?_⟩ <;> decide +kernel
  · cases p <;> refine ⟨?_, ?_, ?_⟩ <;> decide +kernel
  all_goals decide +kernel

theorem protocolLaw_listed : listed.ProtocolLaw :=
  protocolLaw_of_no_readback fun p => by cases p <;> decide +kernel

theorem protocolLaw_answered : (after (.identify .a) State.reset).ProtocolLaw :=
  protocolLaw_of_no_readback fun p => by cases p <;> decide +kernel

/-- ReadTransactions: an unread response, and none; the 18 bytes of a response ending at the transaction's last byte. -/
theorem test_premises_read_transactions :
    (listed.ProtocolLaw ∧ listed.resetHeld = false ∧ (listed.port .a).prstHeld = false ∧ (listed.port .a).unread = none)
      ∧ ((after (.identify .a) State.reset).ProtocolLaw
        ∧ (((after (.identify .a) State.reset).port .a).unread.map fun u => decide (u.bytes.length ≤ u.pos + 18)) = some true
        ∧ (((after (.identify .a) State.reset).port .a).unread.map fun u => decide (u.bytes.length ≤ u.pos + 17))
            = some false) :=
  ⟨⟨protocolLaw_listed, by decide +kernel⟩, protocolLaw_answered, by decide +kernel⟩

/-- DeviceReset, release clause. -/
theorem test_premises_reset_release : (after .deviceReset State.reset).resetHeld = true := by decide +kernel

theorem loadLaw_listed : listed.LoadLaw :=
  loadLaw_of_no_load (by decide +kernel) fun p => by cases p <;> decide +kernel

/-- The open-load law, with a load open on port a and its write burst in flight. -/
theorem loadLaw_draining : draining.LoadLaw := by
  have h : ∀ i, (draining.seg i).state = .loading → i = 1 := by decide +kernel
  refine ⟨fun i hi => ⟨.a, ?_⟩, fun p => ?_, fun p r hr => ?_⟩
  · rw [h i hi]; decide +kernel
  · cases p
    · show (draining.loadUnit .a).phase ≠ .noLoad ∧ (draining.seg 1).state = .loading ∧ (draining.seg 1).owner = some .a
      decide +kernel
    · show (draining.loadUnit .b).phase = .noLoad
      decide +kernel
  · cases p <;> exact (ne_of_empty (by decide +kernel) hr).elim

/-- PortResets, AbortsLoads, ClosesLoads, DrainsComplete: a load open, its burst in flight and its port listening, and the
two commands that reset the port. -/
theorem test_premises_loads :
    draining.LoadLaw ∧ draining.Listening .a ∧ draining.drainInFlight .a ≠ none
      ∧ (∃ b, draining.burst = some b ∧ b.requester = .loadUnit .a ∧ b.write = true)
      ∧ (∃ t, exec (.portReset .a) draining = .next t) ∧ ∃ t, exec (.resetPort .a) draining = .next t :=
  ⟨loadLaw_draining, ⟨by decide +kernel, by decide +kernel, by decide +kernel⟩, by decide +kernel,
    ⟨_, rfl, by decide +kernel, by decide +kernel⟩, exec_total _ _, exec_total _ _⟩

/-- PortResets: PRST with the port EXECUTING abandons the readback, whose burst is to be discarded; with a load open it
frees the segment at once, or when the write burst in flight completes. -/
theorem test_port_resets :
    reading.LoadLaw
      ∧ (let t := after (.portReset .a) reading
         (t.loadUnit .a).readback = none ∧ t.burst.map Burst.keep = some false ∧ (t.port .a).proto = .idle)
      ∧ (let t := after (.portReset .a) loading
         t.loadUnit .a = LoadUnit.empty ∧ t.seg 1 = SegRec.freed)
      ∧ ((after (.portReset .a) draining).loadUnit .a).phase = .aborting := by
  refine ⟨⟨fun i h => ?_, fun p => ?_, fun p r hr => ?_⟩, by decide +kernel⟩
  · have h0 : ∀ i, (reading.seg i).state ≠ .loading := by decide +kernel
    exact (h0 i h).elim
  · cases p
    · show (reading.loadUnit .a).phase = .noLoad
      decide +kernel
    · show (reading.loadUnit .b).phase = .noLoad
      decide +kernel
  · cases p
    · have hr' : r = ⟨1, 0, 0, 3, [], [], false, .live⟩ := (Option.some.inj hr).symm
      subst hr'
      exact fun _ => .inl (by decide +kernel)
    · exact (ne_of_empty rfl hr).elim

/-- AbortsLoads and ClosesLoads in ABORTING, and without a burst in flight at all: CLOSE-LOAD's bounds 15, 16 and 20. -/
theorem test_premises_close_bounds :
    statusA (after (.closeLoad .a) (loading.setLoad .a ⟨.opened, some 1, 20, 20, [], false, none⟩)) = some .ok
      ∧ statusA (after (.closeLoad .a) (loading.setLoad .a ⟨.aborting, some 1, 20, 20, [], false, none⟩)) = some .busy
      ∧ statusA (after (.abortLoad .a) (loading.setLoad .a ⟨.aborting, some 1, 20, 20, [], false, none⟩)) = some .ok
      ∧ statusA (after (.closeLoad .a) State.reset) = some .noLoad := by decide +kernel

/-- DeletesSegments, ReadsSegments, PutsEntries, TrimsLists: the port law with a port that listens. -/
theorem test_premises_segment_commands : listed.ProtocolLaw ∧ listed.Listening .a ∧ listed.Listening .b :=
  ⟨protocolLaw_listed, test_premises_listening.2.1 .a, test_premises_listening.2.1 .b⟩

/-- LOAD-DATA, READ-SEGMENT: the counts 1, 128 and 129, and the offsets 15 and 16 of a segment of 16 samples. -/
theorem test_premises_counts :
    statusA (after (.readSegment .a 1#8 15#16 1#8) listed) = none
      ∧ statusA (after (.readSegment .a 1#8 15#16 128#8) listed) = none
      ∧ statusA (after (.readSegment .a 1#8 15#16 129#8) listed) = some .badArgument
      ∧ statusA (after (.readSegment .a 1#8 16#16 1#8) listed) = some .badArgument
      ∧ statusA (after (.readSegment .a 1#8 0#16 0#8) listed) = some .badArgument
      ∧ statusA (after (.loadData .a (List.replicate 129 0#16)) (loading.setLoad .a ⟨.opened, some 1, 0, 0, [], false, none⟩))
          = some .badArgument
      ∧ statusA (after (.loadData .a (List.replicate 128 0#16)) (loading.setLoad .a ⟨.opened, some 1, 0, 0, [], false, none⟩))
          = some .oversize := by decide +kernel

/-- SegmentsFreed, second clause: a live readback of the segment, with its burst in flight and without one; the requests of
a Load Unit (PortRequestRule of ArbiterDecides). -/
theorem test_premises_freed :
    (let t := reading.freeSegment 1
     (t.loadUnit .a).readback.map Readback.mark = some .cancelledInFlight ∧ t.burst.map Burst.keep = some false)
      ∧ ((({ reading with burst := none }).freeSegment 1).loadUnit .a).readback.map Readback.mark = some .cancelled
      ∧ ({ reading with burst := none }).readRequest .a = true ∧ reading.readRequest .a = false
      ∧ loading.drainRequest .a = true ∧ draining.drainRequest .a = false := by decide +kernel

/-- SegmentsFreed, third clause: no port in RESPONSE-READY has a readback, with a readback of port a cancelled. -/
theorem test_premises_settle :
    let s := reading.setLoad .a { LoadUnit.empty with readback := some ⟨1, 0, 0, 3, [], [], false, .cancelled⟩ }
    (∀ p, (s.port p).proto = .ready → (s.loadUnit p).readback = none) ∧ (s.loadUnit .a).readback ≠ none := by
  refine ⟨fun p => ?_, by decide +kernel⟩
  cases p <;> decide +kernel

/-- `reading` with its burst kept or dropped and its readback marked. -/
def readingWith (keep : Bool) (m : ReadbackMark) : State :=
  { reading.setLoad .a { LoadUnit.empty with readback := some ⟨1, 0, 0, 3, [], [], false, m⟩ } with
    burst := some { readBurst .a ready16 ⟨1, 0, 0, 3, [], [], false, .live⟩ with keep := keep } }

theorem protocolLaw_reading (keep : Bool) (m : ReadbackMark) (hm : m ≠ .cancelled) (h : m = .cancelledInFlight → keep = false) :
    (readingWith keep m).ProtocolLaw := by
  intro p
  cases p
  · refine ⟨by cases m <;> cases keep <;> decide +kernel, by cases m <;> cases keep <;> decide +kernel, fun r hr => ?_⟩
    have hr' : r = ⟨1, 0, 0, 3, [], [], false, m⟩ := (Option.some.inj hr).symm
    subst hr'
    exact ⟨hm, fun hc => ⟨_, rfl, rfl, h hc⟩⟩
  · exact ⟨by cases m <;> cases keep <;> decide +kernel, by cases m <;> cases keep <;> decide +kernel,
      fun r hr => (ne_of_empty rfl hr).elim⟩

/-- ReadbacksComplete: a readback under way with its burst kept; a cancelled one that waits for its burst. -/
theorem test_premises_readbacks :
    ((readingWith true .live).ProtocolLaw
        ∧ (∃ b, (readingWith true .live).burst = some b ∧ b.requester = .loadUnit .a ∧ b.write = false ∧ b.keep = true)
        ∧ ((readingWith true .live).loadUnit .a).readback ≠ none)
      ∧ (readingWith false .cancelledInFlight).ProtocolLaw
        ∧ (∃ b, (readingWith false .cancelledInFlight).burst = some b ∧ b.requester = .loadUnit .a ∧ b.write = false
            ∧ b.keep = false)
        ∧ ((readingWith false .cancelledInFlight).loadUnit .a).readback.map Readback.mark = some .cancelledInFlight :=
  ⟨⟨protocolLaw_reading true .live (by decide) (by decide), ⟨_, rfl, rfl, rfl, rfl⟩, by decide +kernel⟩,
    protocolLaw_reading false .cancelledInFlight (by decide) (fun _ => rfl), ⟨_, rfl, rfl, rfl, rfl⟩, by decide +kernel⟩

/-- Channel 0 with its own fetch burst of two items in flight. -/
def fetching : State :=
  { listed.setChan 0 { runningChan with cursor := none } with
    burst := some ⟨.fetcher 0, false, 0, 2, true, 2, [], true, some ⟨1, 0, 0#16, 2, 16⟩⟩ }

/-- FetchesComplete: a fetch burst in flight; a bad slot first, a good one, a bad one later. -/
theorem test_premises_fetches :
    (∃ b, fetching.burst = some b ∧ b.requester = .fetcher 0)
      ∧ (let slots : List Slot := [⟨1#16, false⟩, ⟨1#16, true⟩, ⟨3#16, true⟩]
         slots[0]?.map Slot.bad = some true ∧ slots[1]?.map Slot.bad = some false ∧ slots[2]?.map Slot.bad = some true) :=
  ⟨⟨_, rfl, rfl⟩, by decide +kernel⟩

/-- SlotsWrittenAndRead: a burst of two slots, its addresses 510 and 511, and those beside them. -/
theorem test_premises_slots :
    let b : Burst := ⟨.loadUnit .a, true, 1, 254, true, 2, [7#16, 8#16], true, none⟩
    b.ascending = true ∧ b.count ≤ b.values.length
      ∧ (∀ a ∈ [509, 512], ∀ k, k < b.count → a ≠ slotAddr b.page (b.first + k))
      ∧ slotAddr b.page (b.first + 1) = 511 ∧ (1 < b.count ∧ b.values[1]? = some 8#16) := by decide +kernel

/-- EntriesRelease: a DOOMED segment at its last reference, and one that is READY. -/
theorem test_premises_releases :
    (ready16.state = .ready ∧ ready16.refs = 1)
      ∧ ((listed.setSeg 1 { ready16 with state := .doomed }).releaseSegment 1).seg 1 = SegRec.freed
      ∧ ((listed.setSeg 1 { ready16 with state := .doomed, refs := 2 }).releaseSegment 1).seg 1
          = { ready16 with state := .doomed, refs := 1 }
      ∧ (listed.releaseSegment 1).seg 1 = { ready16 with refs := 0 } := by decide +kernel

/-- ListsWalked: a list of 64 entries at its entries 62 and 63, a next field that names entry 0, and a pass of index 0 and
of the last one. -/
theorem test_premises_lists :
    let l := List.replicate 64 once
    (l.length ≤ 64 ∧ l[62]? = some once ∧ once.next = none ∧ 62 + 1 < l.length)
      ∧ (l[63]? = some once ∧ 63 + 1 = l.length)
      ∧ ([once, { once with next := some 0 }][1]?.bind Entry.next) = some 0
      ∧ (0 < 16 ∧ storedIndex true 16 0 = 15 ∧ 15 < 16 ∧ storedIndex true 16 15 = 0) := by decide +kernel

/-- PutsEntries: in a list of 64 entries, index 63 replaces and index 64 is refused. -/
theorem test_put_entry_bounds :
    let s := listed.setChan 0 { Chan.reset with list := List.replicate 64 once }
    let e : EntryArg := ⟨1#8, 2#16, 1#8, false, true, false, false, 0#8⟩
    statusA (after (.putEntry .a 0#8 63#8 e) s) = some .ok ∧ statusA (after (.putEntry .a 0#8 64#8 e) s) = some .listFull
      ∧ statusA (after (.putEntry .a 0#8 65#8 e) s) = some .badIndex := by decide +kernel

/-- ClaimsAndReleases: on the mask FFh, free channels, own ones, the other port's, and yieldable ones of the other port. -/
theorem test_claim_table :
    let s := (((ours.setClaim 0 ⟨none, false⟩).setClaim 1 ⟨some .b, false⟩).setClaim 2 ⟨some .b, true⟩)
    ((after (.claim .a 15#8 true true) s).port .a).unread.map Response.payload
      = some [4#8, 0#8, 1#8, 1#8, 3#8, 2#8, 0#8, 2#8, 1#8, 1#8, 1#8, 1#8, 1#8] := by decide +kernel

/-- OnlyTheControllerChanges: a channel of nobody's, by its number and by a mask. -/
theorem test_premises_controllers :
    State.reset.Listening .a
      ∧ (changes (.arm .a 7#8) = some (.a, 7#8) ∧ (State.reset.claimOf 7).controller ≠ some .a ∧ (7#8).toNat = (7 : ChanId).val)
      ∧ (changesAll (.start .a 0x81#8) = some (.a, 0x81#8) ∧ (0x81#8).getLsbD (7 : ChanId).val = true) :=
  ⟨test_premises_listening.1 .a, by decide +kernel, by decide +kernel⟩

/-- RecordsApplied: a record that is empty, and one that is not, at each of its points. -/
theorem test_premises_records :
    Work.applyStaged ⟨runningChan, none, []⟩ = ⟨runningChan, none, []⟩
      ∧ (({ PendingRec.empty with gain := some 0#16, point := some .entry } : PendingRec).isEmpty = false) := by
  decide +kernel

/-- Arms: a port that listens, and lists of at most 64 entries, one of them full. -/
theorem test_premises_arms :
    let s := listed.setChan 7 { Chan.reset with list := List.replicate 64 once }
    s.resetHeld = false ∧ (s.port .a).prstHeld = false ∧ (s.port .a).proto ≠ .executing
      ∧ (∀ c, (s.chan c).list.length ≤ 64) ∧ (s.chan 7).list.length = 64 := by decide +kernel

/-- SampleArithmetic: fractions 0 and 65535, gains 0 and 16384, and the sums on each side of the bounds. -/
theorem test_premises_arithmetic :
    (0 < 65536 ∧ 65535 < 65536 ∧ interpolate .linear (-32768) 32767 65535 = 32766)
      ∧ ((0#16).toInt = 0 ∧ (16384#16).toInt = 16384 ∧ scale (-32768) (-32768) = 65536)
      ∧ (saturate 32767 = 32767 ∧ saturate 32768 = 32767 ∧ saturate (-32768) = -32768 ∧ saturate (-32769) = -32768) := by
  decide +kernel

/-- OutputTicks: a due tick in each phase, the tick that starves with a count of 2, and the same with a count of 1. -/
theorem test_premises_ticks :
    (ticking runningChan).tickOf 0 = .due
      ∧ ((ticking Chan.reset).work 0).beginTick.2 = .idleWord
      ∧ ((ticking { Chan.reset with state := .halted }).work 0).beginTick.2 = .parkWord
      ∧ ((ticking { runningChan with state := .stopping, stop := some .immediate }).work 0).beginTick.2 = .stopNow
      ∧ ((ticking { runningChan with state := .waiting, pos := 0 }).work 0).beginTick.2 = .hold
      ∧ ((ticking runningChan).work 0).beginTick.2 = .play
      ∧ (ticking { runningChan with fifo := [], consec := 2 }).starves 0 = true
      ∧ (ticking { runningChan with fifo := [], consec := 1 }).starves 0 = false := by decide +kernel

/-- RefusedFrameAnswered: a frame for each of the seven checks, and a payload of the right shape and one of a wrong. -/
theorem test_premises_frame_checks :
    (decodeFrame .a [0xA4#8, 0x01#8, 0x00#8, 0x00#8, 0xFB#8, 0xAC#8] = .error .badFrame
        ∧ decodeFrame .a [0xA5#8, 0x01#8, 0x00#8, 0x00#8, 0xFB#8] = .error .badFrame
        ∧ decodeFrame .a [0xA5#8, 0x01#8, 0x01#8, 0x2D#8, 0xFB#8, 0xAC#8] = .error .badFrame
        ∧ decodeFrame .a [0xA5#8, 0x01#8, 0x00#8, 0x01#8, 0xFB#8, 0xAC#8] = .error .badFrame
        ∧ decodeFrame .a [0xA5#8, 0x01#8, 0x00#8, 0x00#8, 0xFB#8, 0xAD#8] = .error .badFrame
        ∧ Table.fields 0x04 = none ∧ Table.fields 0x28 = some [.raw 1, .flag, .flag])
      ∧ Table.RightShape 0x28#8 [3#8, 1#8, 0#8] ∧ ¬ Table.RightShape 0x28#8 [3#8, 2#8, 0#8] := by
  refine ⟨by decide +kernel, ?_, ?_⟩ <;> simp [Table.RightShape, Table.fields, Table.Fits]

/-- SlotsWrittenAndRead: a descending burst delivers its slots downwards; a stored slot disturbed, and one never written. -/
theorem test_premises_reads :
    let s : State := { State.reset with mem := [(261, writtenSlot 7#16), (262, writtenSlot 8#16)] }
    let b : Burst := ⟨.fetcher 0, false, 1, 6, false, 2, [], true, none⟩
    (s.readSlots b).map Slot.value = [8#16, 7#16]
      ∧ ((262, writtenSlot 8#16) ∈ s.mem ∧ ((s.disturb [⟨262, ⟨1#16, false⟩⟩]).readSlots b).map Slot.value = [9#16, 7#16]
        ∧ ((s.disturb [⟨262, ⟨1#16, false⟩⟩]).readSlots b).map Slot.bad = [true, false])
      ∧ (s.disturb [⟨0, ⟨1#16, false⟩⟩]).mem = s.mem := by decide +kernel

/-- ReadTransactions: RDY in RESPONSE-READY, in IDLE, and with PRST held. -/
theorem test_premises_rdy :
    let s := after (.identify .a) State.reset
    rdy s.resetHeld (s.port .a) = true ∧ rdy s.resetHeld (s.port .b) = false
      ∧ rdy s.resetHeld { s.port .a with prstHeld := true } = false := by decide +kernel

/-- PutsEntries: the entry of a record, its next absent and at its greatest. -/
theorem test_premises_entry_record :
    EntryRule ⟨9#8, 3#16, 2#8, true, false, true, false, 0xFF#8⟩ ⟨9, 3#16, .pingpong, true, false, true, false, none⟩
      ∧ EntryRule ⟨9#8, 3#16, 1#8, false, true, false, true, 63#8⟩ ⟨9, 3#16, .reverse, false, true, false, true, some 63⟩ := by
  constructor <;> simp [EntryRule, Table.direction]

/-- SetsStatics: a command that names no parameter is refused on an active channel and answered OK on an idle one. -/
theorem test_static_without_parameters :
    let none' : StaticArgs := ⟨none, none, none, none, none, none, none, none, none, none⟩
    statusA (after (.setStatic .a 0#8 none') (ticking runningChan)) = some .channelActive
      ∧ statusA (after (.setStatic .a 0#8 none') ours) = some .ok := by decide +kernel

/-- Channels 0 and 1 in play, both ticks due, channel 0 with ADD-PARTNER. -/
def pairTicking : State :=
  let add := { runningChan with stat := { Chan.reset.stat with combine := .addPartner } }
  ((ticking add).setChan 1 runningChan).setTick 1 .due

/-- TicksTouchTheirChannels: a tick that is due is taken, alone and with one that coincides; a channel with another divider
keeps its due tick. -/
theorem test_premises_tick_taken :
    (ticking runningChan).coincident 0 = [] ∧ pairTicking.coincident 0 = [1]
      ∧ (let slow := pairTicking.setChan 1 { runningChan with stat := { Chan.reset.stat with divider := 2 } }
         slow.coincident 0 = [] ∧ (after (.outputTick 0) slow).tickOf 1 = .due)
      ∧ ∃ t, exec (.outputTick 0) pairTicking = .next t :=
  ⟨by decide +kernel, by decide +kernel, by decide +kernel, exec_total _ _⟩

/-- Channels 0 and 1 in play, both ticks due, each with a record that waits for a trigger and, perhaps, a group request. -/
def groupTicking (group : Bool) : State :=
  let k := { runningChan with staged := { PendingRec.empty with gain := some 5#16, point := some .trigger, group := group } }
  ((ticking k).setChan 1 k).setTick 1 .due

/-- RecordsApplied: the due tick of either channel applies the group's records at both. -/
theorem test_group_applies_together :
    (∀ c : ChanId, c = 0 ∨ c = 1 →
      let t := after (.outputTick c) (groupTicking true)
      (t.chan 0).live.gain = 5#16 ∧ (t.chan 1).live.gain = 5#16 ∧ (t.chan 0).staged.isEmpty = true
        ∧ (t.chan 1).staged.isEmpty = true ∧ t.tickOf 0 ≠ .due ∧ t.tickOf 1 ≠ .due)
      ∧ (groupTicking true).tickOf 1 = .due ∧ ((groupTicking true).chan 1).state.playing = true
      ∧ ((groupTicking true).chan 1).staged.isEmpty = false ∧ ((groupTicking true).chan 1).staged.group = true := by
  decide +kernel

/-- R147: an APPLY-GROUP after the tick of one channel of the group is after the ticks of both: a second OUTPUT_TICK of this
edge applies neither record, and the next edge applies both. -/
theorem test_group_after_the_tick :
    let t := after (.applyGroup .a 3#8) (after (.outputTick 0) (groupTicking false))
    let u := after (.outputTick 1) t
    let v := after (.outputTick 1) (after .sclkRisingEdge t)
    ((t.chan 0).staged.group = true ∧ (t.chan 1).staged.group = true ∧ t.tickOf 1 ≠ .due)
      ∧ ((u.chan 0).live.gain ≠ 5#16 ∧ (u.chan 1).live.gain ≠ 5#16)
      ∧ (v.chan 0).live.gain = 5#16 ∧ (v.chan 1).live.gain = 5#16 := by decide +kernel

/-- OutputTicks: the value added is that of the same edge, and both ticks are taken. -/
theorem test_tick_adds_the_partner :
    let t := after (.outputTick 0) pairTicking
    (t.chan 0).out = 3002#16 ∧ (t.chan 1).out = 1501#16 ∧ t.tickOf 0 = .done 1501 ∧ t.tickOf 1 = .done 1501 := by
  decide +kernel

/-- OutputTicks: a value beyond the bound clips and opens an episode. -/
theorem test_tick_clips :
    let loud := { runningChan with live := { Chan.reset.live with offset := 32767#16 } }
    let t := after (.outputTick 0) (ticking loud)
    (t.chan 0).out = 32767#16 ∧ (t.chan 0).clipOpen = true ∧ (t.chan 0).clipCount = 1
      ∧ (t.port .a).events.map EventEntry.kind = [.clip] := by decide +kernel

/-- OutputTicks: a pass end drops the pass, raises the pass count, clears the consecutive count and carries 20000. -/
theorem test_tick_ends_a_pass :
    let last := { runningChan with
      pos := 15 * 65536 + 20000, consec := 1, list := [{ once with repeats := 0#16 }],
      fifo := [⟨9#16, 0, 0#16, 15, true⟩, ⟨3#16, 0, 1#16, 0, false⟩] }
    let t := after (.outputTick 0) (ticking last)
    (t.chan 0).pass = 1#16 ∧ (t.chan 0).pos = 20000 ∧ (t.chan 0).consec = 0
      ∧ (t.chan 0).fifo = [⟨3#16, 0, 1#16, 0, false⟩] := by decide +kernel

/-- EdgesTrigger: a marker that turns active in a tick changes the level of the line it drives; a line without a driver is
low. -/
theorem test_tick_changes_a_line :
    let k := { runningChan with mk1 := { Marker.reset with mode := .entry, remaining := 1 } }
    let s := { ticking k with
      drivers := (Vector.replicate 4 none).set 2 (some (0, .mk1)), modes := Vector.replicate 8 .rising }
    s.lineLevel 2 = false ∧ s.drivers.get 1 = none ∧ s.lineLevel 1 = false
      ∧ (after (.outputTick 0) s).syncEvents = [⟨2, 0⟩] ∧ (after (.outputTick 0) s).lineLevel 2 = true := by decide +kernel

/-- PassesEnd: each of the six cases of R69, told apart by the state reached. -/
theorem test_pass_ends :
    let ended := { runningChan with pass := 1#16, pos := 0, fifo := [] }
    let leaving := { ended with list := [{ once with leave := true, repeats := 0#16 }, once], advLatch := true }
    (Work.afterPass 0 5 ⟨{ ended with state := .stopping, stop := some .atPass }, none, []⟩).ch.state = .idle
      ∧ (Work.afterPass 0 5 ⟨{ ended with list := [once, once], jump := some 1 }, none, []⟩).ch.entry = 1
      ∧ (Work.afterPass 0 5 ⟨leaving, none, []⟩).ch.entry = 1
      ∧ (Work.afterPass 0 5 ⟨{ ended with list := [{ once with repeats := 2#16 }] }, none, []⟩).ch.pos = 5
      ∧ (Work.afterPass 0 5 ⟨{ ended with list := [once, once] }, none, []⟩).ch.entry = 1
      ∧ (Work.afterPass 0 5 ⟨ended, none, []⟩).raised = [.listDone] := by decide +kernel

/-- TickInputs: no tick, a tick taken, and a tick due in play and out of play. -/
theorem test_premises_inputs :
    listed.tickOf 0 = .noTick ∧ (listed.setTick 0 (.done 7)).tickOf 0 = .done 7
      ∧ (ticking runningChan).contribution 0 = 1501 ∧ (ticking Chan.reset).contribution 0 = 0
      ∧ (ticking { runningChan with fifo := [], scaled := 3 }).contribution 0 = 3 := by decide +kernel

/-- ClockLoss and ClockIsJudged: the periods 249 and 250, the run lengths 49998 and 49999. -/
theorem test_premises_clock :
    let still := fun (m : Monitor) => { State.reset with monitor := m }
    ours.monitor.clock = .present ∧ State.reset.monitor.clock = .lost ∧ State.reset.pending = []
      ∧ (still ⟨.present, 0, 0, 248, true⟩).refclkPeriod.monitor = ⟨.present, 0, 0, 249, true⟩
      ∧ (still ⟨.present, 0, 0, 249, true⟩).refclkPeriod.monitor.clock = .lost
      ∧ (still ⟨.lost, 9, 0, 248, true⟩).refclkPeriod.monitor.runLength = 10
      ∧ (still ⟨.lost, 9, 0, 249, true⟩).refclkPeriod.monitor.runLength = 0
      ∧ (still ⟨.lost, 49998, 0, 3, true⟩).refclkPeriod.monitor.clock = .lost
      ∧ (still ⟨.lost, 49999, 0, 3, true⟩).refclkPeriod.monitor.clock = .present
      ∧ (still ⟨.lost, 9, 0, 248, false⟩).refclkPeriod.monitor = ⟨.lost, 9, 0, 249, false⟩ := by decide +kernel

/-- ClockIsJudged: the move to PRESENT leaves the time since the last edge of a running SCLK; an edge starts it again. -/
theorem test_clock_back_keeps_the_last_edge :
    let still := fun (m : Monitor) => { State.reset with monitor := m }
    (still ⟨.lost, 49999, 0, 248, true⟩).refclkPeriod.monitor = ⟨.present, 0, 0, 249, true⟩
      ∧ (after .clockRestored (still ⟨.lost, 7, 0, 250, false⟩)).monitor = ⟨.present, 0, 0, 0, true⟩
      ∧ (after .sclkRisingEdge (still ⟨.lost, 7, 0, 250, false⟩)).monitor = ⟨.lost, 7, 0, 0, true⟩ := by decide +kernel

/-- ClockLoss: a cause already in the set is marked MULTIPLE, others stay, and a record not empty raises APPLIED. -/
theorem test_clock_loss_causes :
    let k := { runningChan with staged := { PendingRec.empty with gain := some 0#16, point := some .pass } }
    let r := { PortRec.reset with events := [⟨.chan 0, .fault, .nothing, false⟩, ⟨.chan 1, .clip, .nothing, false⟩] }
    ((after .clockLost ((listed.setChan 0 k).setPort .a r)).port .a).events
      = [⟨.chan 0, .fault, .nothing, true⟩, ⟨.chan 0, .applied, .nothing, false⟩, ⟨.chan 1, .clip, .nothing, false⟩,
         ⟨.device, .clockLost, .nothing, false⟩] := by decide +kernel

/-- Fires: one event that overruns two subscriptions of a channel (log 35). -/
theorem test_fire_overruns_twice :
    let k := { runningChan with
      advLatch := true, updLatch := true, staged := { PendingRec.empty with gain := some 0#16, point := some .trigger }
      stat := { Chan.reset.stat with advSrc := some (.soft .a), updSrc := some (.soft .a) } }
    ((after (.fire .a) (listed.setChan 0 k)).port .b).events = [⟨.chan 0, .triggerOverrun, .nothing, true⟩] := by
  decide +kernel

/-- EdgesTrigger: a pin whose change counts, one whose change does not, and a sync line with an event. -/
theorem test_premises_edges :
    let s := { ours with modes := Vector.replicate 8 .rising, syncEvents := [⟨3, 0⟩] }
    s.resetHeld = false ∧ (s.modes.get (pinIndex 3)).counts true = true ∧ s.judged.get 3 ≠ true
      ∧ (s.modes.get (pinIndex 3)).counts false = false ∧ s.syncEvents.find? (fun x => decide (x.line = 3)) = some ⟨3, 0⟩ ∧ ∀ c, s.tickOf c ≠ .due := by decide +kernel

/-- R137: channel 0 stops at its tick, its line SYN2 falls, and it is armed again before the edge is delivered: the edge has
no effect at its own start subscription, and starts channel 1, which subscribes to the line too. -/
theorem test_own_start_loop_has_no_effect :
    let st := { Chan.reset.stat with startSrc := some (.syn 2) }
    let k := { runningChan with
      state := .stopping, stop := some .immediate, stat := st, mk1 := { Marker.reset with mode := .entry, active := true } }
    let s := { (ticking k).setChan 1 { Chan.reset with state := .armed, stat := st } with
      drivers := (Vector.replicate 4 none).set 2 (some (0, .mk1)), modes := Vector.replicate 8 .falling }
    let t := after (.arm .a 0#8) (after (.outputTick 0) s)
    let u := after (.syncLineEdge 2) t
    ((t.chan 0).state = .arming ∧ t.syncEvents = [⟨2, 0⟩])
      ∧ ((u.chan 0).startPending = false ∧ (u.chan 0).startLatch = false ∧ (u.chan 1).startPending = true)
      ∧ ((after .sclkRisingEdge t).chan 0).startPending = false := by decide +kernel

/-- MarkersCount: remaining 0 and 1; the output at the threshold, one below it, at the hysteresis and one below that; and a
pulse that ends. -/
theorem test_premises_markers :
    let m : Marker := ⟨.entry, 2, .normal, 0, true, 1⟩
    let l : Marker := ⟨.level, 1, .normal, 10, false, 0⟩
    (m.countTick = { m with remaining := 0 } ∧ ({ m with remaining := 0 } : Marker).countTick.active = false)
      ∧ (l.countTick = l ∧ m.compareLevel 100 100 = m)
      ∧ ((l.compareLevel 100 100).active = true ∧ l.compareLevel 99 100 = l ∧ l.compareLevel 90 100 = l
          ∧ ({ l with active := true } : Marker).compareLevel 90 100 = { l with active := true }
          ∧ (({ l with active := true } : Marker).compareLevel 89 100).active = false)
      ∧ (let k := { runningChan with mk1 := { Marker.reset with mode := .entry, active := true } }
         (ticking k).tickOf 0 = .due ∧ ((ticking k).chan 0).pulseEnds .mk1 = true) := by decide +kernel

/-- EventSets: a set in order, with the cause already there and with it absent. -/
theorem test_premises_events :
    let l : List EventEntry := [⟨.chan 1, .clip, .nothing, false⟩, ⟨.device, .clockLost, .nothing, false⟩]
    l.Pairwise (fun e f => e.key < f.key)
      ∧ (∃ e ∈ l, e.source = .chan 1 ∧ e.kind = .clip) ∧ ¬ ∃ e ∈ l, e.source = .chan 1 ∧ e.kind = .parity := by
  decide +kernel

/-- ArbiterDecides: an urgent Fetcher; a port passed ended eight times; a Fetcher that is not urgent; a port alone; nobody. -/
theorem test_premises_arbiter :
    let walking := fun n => { runningChan with
      cursor := some ⟨0, 0#16, 0⟩
      fifo := List.replicate n ⟨0#16, 0, 0#16, 0, false⟩ }
    (loading.setChan 0 (walking 15)).chosen = some (.fetcher 0) ∧ (loading.setChan 0 (walking 15)).urgent 0 = true
      ∧ ((loading.setChan 0 (walking 16)).setPassOver .a 8).chosen = some (.loadUnit .a)
      ∧ ((loading.setChan 0 (walking 16)).setPassOver .a 7).chosen = some (.fetcher 0)
      ∧ (loading.setChan 0 (walking 33)).chosen = some (.loadUnit .a)
      ∧ State.reset.anyRequest = false ∧ State.reset.chosen = none ∧ draining.burst ≠ none := by decide +kernel

/-- ArbiterDecides, the bursts: a pass at its first and last index, forward and in reverse, and a FIFO with one place left. -/
theorem test_premises_bursts :
    let r : SegRec := { ready16 with length := some 300, pages := [4, 9] }
    let back := { once with dir := .reverse }
    (r.length = some 300 ∧ 0 < 300 ∧ 299 < 300 ∧ 63 < 64)
      ∧ (fetchBurst 0 r once ⟨0, 0#16, 0⟩ 0).count = 32
      ∧ (fetchBurst 0 r once ⟨0, 0#16, 299⟩ 0).count = 1
      ∧ (fetchBurst 0 r back ⟨0, 0#16, 0⟩ 63).page = 9 ∧ (fetchBurst 0 r back ⟨0, 0#16, 0⟩ 63).count = 1
      ∧ (fetchBurst 0 r back ⟨0, 0#16, 43⟩ 0).first = 0 ∧ (fetchBurst 0 r back ⟨0, 0#16, 43⟩ 0).count = 1
      ∧ (loading.loadUnit .a).buffer ≠ [] ∧ 0 < (⟨1, 0, 0, 1, [], [], false, .live⟩ : Readback).remaining := by
  decide +kernel

/-- WhatChangesWhat: an answer of each kind of command that its clauses name, from a state with an active channel. -/
theorem test_premises_changes :
    (∃ t, exec (.fire .a) fetching = .next t) ∧ (fetching.chan 0).state.active = true :=
  ⟨exec_total _ _, by decide +kernel⟩

/-! ### Witnesses for the laws: states that meet them, which the machine leaves by a step -/

/-- Page 5 retired and suspect; every other page free. -/
def onePageRetired : State :=
  { State.reset with
    pages := (Vector.replicate 2048 ⟨.free, false⟩).set 5 ⟨.retired, true⟩
    freeList := (List.finRange 2048).filter (· ≠ 5)
    retired := [5] }

theorem get_replicate_vector {α : Type} {n : Nat} (v : α) (i : Fin n) : (Vector.replicate n v).get i = v :=
  Vector.getElem_replicate ..

theorem heldPages_of_all_free {s : State} (h : s.segs = Vector.replicate 256 .freed) : s.heldPages = [] := by
  unfold State.heldPages
  rw [h, Vector.toList_replicate]
  exact List.flatMap_eq_nil_iff.mpr fun x hx => by rw [List.eq_of_mem_replicate hx]; rfl

theorem test_premises_page_law : onePageRetired.PageLaw ∧ ∃ t, step onePageRetired = .next t := by
  have hp : ∀ n, onePageRetired.page n = if n = 5 then ⟨.retired, true⟩ else ⟨.free, false⟩ := fun n => by
    simp only [onePageRetired, State.page]
    have h := get_set_vector (Vector.replicate 2048 (⟨.free, false⟩ : PageRec)) 5 n ⟨.retired, true⟩
    rw [get_replicate_vector] at h
    exact h
  have hs : onePageRetired.segs = Vector.replicate 256 .freed := by simp only [onePageRetired, State.reset]
  have hh : onePageRetired.heldPages = [] := heldPages_of_all_free hs
  have hf : onePageRetired.freeList = (List.finRange 2048).filter (· ≠ 5) := by simp only [onePageRetired]
  have hr : onePageRetired.retired = [5] := by simp only [onePageRetired]
  refine ⟨⟨?_, ?_, ?_, ?_, ?_, ?_⟩, step_total _⟩
  · rw [hf, hr, hh, List.append_nil]
    refine List.nodup_append.mpr ⟨(List.nodup_finRange _).filter _, by simp, ?_⟩
    intro a ha b hb
    rw [List.mem_singleton.mp hb]
    simpa using (List.mem_filter.mp ha).2
  · intro n hn
    rw [hf] at hn
    rw [hp, if_neg (by simpa using (List.mem_filter.mp hn).2)]
  · intro n hn
    rw [hr] at hn
    rw [hp, if_pos (List.mem_singleton.mp hn)]
  · intro n hn
    rw [hh] at hn
    cases hn
  · intro n
    rw [hf, hr, hh]
    by_cases h : n = 5 <;> simp [h]
  · intro i _
    have h : onePageRetired.seg i = SegRec.freed := by
      unfold State.seg
      rw [hs]
      exact get_replicate_vector _ i
    rw [h]; rfl

theorem test_premises_memory_law : draining.MemoryLaw ∧ ∃ t, step { draining with pending := [.drainBurstComplete] } = .next t := by
  refine ⟨⟨by decide +kernel, by decide +kernel, fun b hb => ?_⟩, step_total _⟩
  have h : b = drainBurst .a (draining.seg 1) (draining.loadUnit .a) := (Option.some.inj hb).symm
  rw [h]
  show 0 + min 32 (min 2 (256 - 0 % 256)) ≤ 256
  decide

/-- LoadAndProtocolLawsKept: a load open with its write burst in flight. -/
theorem test_premises_load_and_protocol_laws :
    draining.LoadLaw ∧ draining.ProtocolLaw ∧ draining.CountLaw ∧ draining.PageCountLaw
      ∧ ∃ t, step { draining with pending := [.drainBurstComplete] } = .next t := by
  refine ⟨loadLaw_draining, protocolLaw_of_no_readback fun p => by cases p <;> decide +kernel, fun p => ?_, fun i => ?_,
    step_total _⟩
  · cases p
    · refine ⟨⟨by decide +kernel, by decide +kernel⟩, by decide +kernel, by decide +kernel, by decide +kernel, fun b hb => ?_⟩
      have h : b = drainBurst .a (draining.seg 1) (draining.loadUnit .a) := (Option.some.inj hb).symm
      rw [h]
      decide +kernel
    · refine ⟨⟨by decide +kernel, by decide +kernel, by decide +kernel, by decide +kernel⟩, by decide +kernel,
        by decide +kernel, by decide +kernel, fun b hb => ?_⟩
      exact absurd hb (by rw [show draining.drainInFlight .b = none by decide +kernel]; simp)
  · have h : ∀ i, draining.seg i = SegRec.freed ∨ draining.seg i = draining.seg 1 := by decide +kernel
    rcases h i with h | h <;> rw [h]
    · trivial
    · exact ⟨20, by decide +kernel⟩

theorem test_premises_reference_law :
    listed.LoadLaw ∧ listed.ReferenceLaw ∧ ∃ t, step { listed with pending := [.trimList .a 0#8 0#8] } = .next t := by
  refine ⟨loadLaw_listed, fun i => ?_, step_total _⟩
  have h : ∀ i, (listed.seg i).refs = listed.namings i ∧ ((listed.seg i).state = .free ∧ (listed.seg i).refs = 0
      ∨ (listed.seg i).state = .ready) := by decide +kernel
  obtain ⟨h1, h2⟩ := h i
  refine ⟨h1, ?_⟩
  rcases h2 with ⟨a, b⟩ | a
  · rw [a]; exact b
  · rw [a]; trivial

/-- LaneFifoMarkerAndRangeLawsKept, the first two clauses. -/
theorem test_premises_lane_fifo_laws :
    (∀ c, (fetching.chan c).LaneLaw) ∧ fetching.FifoLaw ∧ ∃ t, step { fetching with pending := [.fetchBurstComplete []] } = .next t := by
  refine ⟨?_, ?_, step_total _⟩
  · intro c
    show ((fetching.chan c).lane.toNat : Int) = (fetching.chan c).out.toInt + 32768
    revert c; decide +kernel
  · intro c
    refine ⟨?_, fun b hb _ _ => ?_⟩
    · revert c; decide +kernel
    · have h : b.count = 2 := by rw [← Option.some.inj hb]
      rw [h]
      have h2 : ∀ c, (fetching.chan c).fifo.length + 2 ≤ 64 := by decide +kernel
      exact h2 c

theorem loadLaw_fetching : fetching.LoadLaw :=
  loadLaw_of_no_load (by decide +kernel) fun p => by cases p <;> decide +kernel

theorem rangeLaw_once (k : Chan) (h : k = { runningChan with cursor := none } ∨ k = Chan.reset) : k.RangeLaw := by
  rcases h with h | h <;> rw [h] <;>
    exact ⟨by decide, by decide, by decide, by decide, fun _ hn => (ne_of_empty rfl hn).elim, by decide, by decide, by decide⟩

theorem fetching_chan : ∀ c, fetching.chan c = { runningChan with cursor := none } ∨ fetching.chan c = Chan.reset := by
  decide +kernel

/-- ChannelLawsKept, the position law: a channel in play, with the laws it rests on. -/
theorem test_premises_walk_law :
    fetching.LoadLaw ∧ fetching.ReferenceLaw ∧ fetching.PageCountLaw ∧ (∀ c, (fetching.chan c).RangeLaw)
      ∧ fetching.WalkLaw ∧ (fetching.chan 0).state.playing = true := by
  have hs : ∀ i, fetching.seg i = SegRec.freed ∨ fetching.seg i = ready16 := by decide +kernel
  refine ⟨loadLaw_fetching, fun i => ?_, fun i => ?_, fun c => rangeLaw_once _ (fetching_chan c), fun c hc => ?_,
    by decide +kernel⟩
  · have h : ∀ i, (fetching.seg i).refs = fetching.namings i := by decide +kernel
    refine ⟨h i, ?_⟩
    rcases hs i with h | h <;> rw [h]
    · rfl
    · trivial
  · rcases hs i with h | h <;> rw [h]
    · trivial
    · exact ⟨16, by decide +kernel⟩
  · have h : ∀ c, (fetching.chan c).state.active = true → c = 0 := by decide +kernel
    obtain rfl := h c hc
    exact ⟨by decide +kernel, by decide +kernel, fun _ hj => (ne_of_empty (by decide +kernel) hj).elim, by decide +kernel⟩

/-- A channel in play of an entry without end: items 14 and 15 of pass 0 in its FIFO, its cursor at item 2 of pass 1. -/
def walkingChan : Chan := { runningChan with
  list := [{ once with repeats := 0#16 }], pos := 14 * 65536, cursor := some ⟨0, 1#16, 2⟩
  fifo := [⟨1#16, 0, 0#16, 14, false⟩, ⟨2#16, 0, 0#16, 15, true⟩] }

/-- That channel as channel 0, items 0 and 1 of pass 1 in its burst in flight. -/
def walking : State :=
  { listed.setChan 0 walkingChan with burst := some ⟨.fetcher 0, false, 0, 0, true, 2, [], true, some ⟨1, 0, 1#16, 0, 16⟩⟩ }

/-- PlayOrderKept: a channel in play, its walk across the end of a pass. -/
theorem test_premises_play_order :
    walking.LoadLaw ∧ walking.ReferenceLaw ∧ walking.PageCountLaw ∧ walking.KeptLaw ∧ walking.WalkLaw
      ∧ (∀ c, (walking.chan c).CourseLaw ∧ (walking.chan c).FlushedLaw ∧ (walking.chan c).RangeLaw)
      ∧ walking.PlayOrderLaw ∧ ∃ t, step { walking with pending := [.fetchBurstComplete []] } = .next t := by
  have hs : ∀ i, walking.seg i = SegRec.freed ∨ walking.seg i = ready16 := by decide +kernel
  have ha : ∀ c, (walking.chan c).state.active = true → c = 0 := by decide +kernel
  have hk : ∀ c, walking.chan c = walkingChan ∨ walking.chan c = Chan.reset := by decide +kernel
  refine ⟨loadLaw_of_no_load (by decide +kernel) fun p => by cases p <;> decide +kernel, fun i => ?_, fun i => ?_,
    fun b hb c hc _ => ?_, fun c hc => ?_, fun c => ?_, fun c hc => ?_, step_total _⟩
  · have h : ∀ i, (walking.seg i).refs = walking.namings i := by decide +kernel
    refine ⟨h i, ?_⟩
    rcases hs i with h | h <;> rw [h]
    · rfl
    · trivial
  · rcases hs i with h | h <;> rw [h]
    · trivial
    · exact ⟨16, by decide +kernel⟩
  · have h : b.requester = .fetcher 0 := by rw [← Option.some.inj hb]
    rw [h] at hc
    rw [← Requester.fetcher.inj hc]
    decide +kernel
  · obtain rfl := ha c hc
    exact ⟨by decide +kernel, by decide +kernel, fun _ hj => (ne_of_empty (by decide +kernel) hj).elim, by decide +kernel⟩
  · rcases hk c with h | h <;> rw [h]
    · exact ⟨⟨by decide, rfl, by decide, by decide, by decide, by decide, by decide, by decide, by decide, by decide⟩,
        fun h => absurd h (by decide),
        ⟨by decide, by decide, by decide, by decide, fun _ hn => (ne_of_empty rfl hn).elim, by decide, by decide, by decide⟩⟩
    · exact ⟨⟨by decide, rfl, by decide, by decide, by decide, by decide, by decide, by decide, by decide, by decide⟩,
        fun _ => by decide, rangeLaw_once _ (.inr rfl)⟩
  · obtain rfl := ha c hc
    have he : walking.fetchedPlaces 0 = [⟨0, 0#16, 14⟩, ⟨0, 0#16, 15⟩, ⟨0, 1#16, 0⟩, ⟨0, 1#16, 1⟩] := by decide +kernel
    have hc0 : (walking.chan 0).cursor = some ⟨0, 1#16, 2⟩ := by decide +kernel
    have hl : lengthOf walking.segs (walking.chan 0) 0 = 16 := by decide +kernel
    have hp : ∀ pass, (walking.chan 0).hasPass 0 pass := fun pass =>
      ⟨{ once with repeats := 0#16 }, by decide +kernel, .inl rfl⟩
    refine ⟨?_, ?_, ?_, hp _, by decide +kernel, by decide +kernel, ?_, ?_, ?_⟩
    · rw [he, hc0, show (walking.chan 0).jump = none by decide +kernel]
      simp only [List.cons_append, List.nil_append, Option.toList_some, Chan.PlayOrder, hl]
      simp only [Nat.reduceAdd, Nat.reduceLT, ↓reduceIte, true_and, and_true]
      exact ⟨{ once with repeats := 0#16 }, by decide +kernel, rfl, by rw [if_pos (.inl rfl)]; exact ⟨rfl, rfl⟩⟩
    · rw [he, hc0]
      intro x hx
      have h : x.entry = 0 ∧ x.index < 16 := by
        revert x; decide +kernel
      rw [h.1, hl]
      exact ⟨hp _, h.2⟩
    · rw [he]
      intro x hx
      rw [← Option.some.inj hx]
      decide +kernel
    · intro b g hb _ hg
      have h : b = ⟨.fetcher 0, false, 0, 0, true, 2, [], true, some ⟨1, 0, 1#16, 0, 16⟩⟩ := by
        rw [← Option.some.inj ((by decide +kernel : ownBurst 0 walking.burst = some ⟨.fetcher 0, false, 0, 0, true, 2, [],
          true, some ⟨1, 0, 1#16, 0, 16⟩⟩).symm.trans hb)]
      subst h
      rw [← Option.some.inj hg]
      decide +kernel
    · exact fun j hj => absurd hj (by rw [show (walking.chan 0).target = none by decide +kernel]; simp)
    · rw [if_neg (by decide +kernel)]
      exact ⟨fun j hj => absurd hj (by rw [show (walking.chan 0).jump = none by decide +kernel]; simp),
        fun h => absurd h (by decide +kernel)⟩

theorem test_premises_channel_laws :
    fetching.KeptLaw
      ∧ (∀ c, (fetching.chan c).CourseLaw ∧ (fetching.chan c).RecordLaw ∧ (fetching.chan c).FlushedLaw
          ∧ (fetching.chan c).UnderrunLaw)
      ∧ ∃ t, step fetching = .next t := by
  refine ⟨?_, fun c => ?_, step_total _⟩
  · intro b hb c hc _
    have h : b.requester = .fetcher 0 := by rw [← Option.some.inj hb]
    rw [h] at hc
    rw [← Requester.fetcher.inj hc]
    decide +kernel
  · rcases fetching_chan c with h | h <;> rw [h]
    · refine ⟨⟨by decide, rfl, by decide, by decide, by decide, by decide, by decide, by decide, by decide, by decide⟩, ?_,
        fun h => absurd h (by decide), ?_⟩
      · unfold Chan.RecordLaw; decide
      · unfold Chan.UnderrunLaw; decide
    · refine ⟨⟨by decide, rfl, by decide, by decide, by decide, by decide, by decide, by decide, by decide, by decide⟩, ?_,
        fun _ => by decide, ?_⟩
      · unfold Chan.RecordLaw; decide
      · unfold Chan.UnderrunLaw; decide

/-- LaneFifoMarkerAndRangeLawsKept, the third clause. -/
theorem test_premises_marker_and_range_laws :
    (∀ c, (listed.chan c).RangeLaw ∧ (listed.chan c).MarkerLaw) ∧ ∃ t, step listed = .next t := by
  refine ⟨fun c => ?_, step_total _⟩
  have h : listed.chan c = { Chan.reset with list := [once] } ∨ listed.chan c = Chan.reset := by
    revert c; decide +kernel
  have hm : Marker.reset.Law := ⟨by decide, by decide, by decide, by decide, by decide, by decide⟩
  rcases h with h | h <;> rw [h]
  · exact ⟨⟨by decide, by decide, by decide, by decide, fun _ hn => (ne_of_empty rfl hn).elim, by decide, by decide, by decide⟩,
      hm, hm, by decide⟩
  · exact ⟨⟨by decide, by decide, by decide, by decide, fun _ hn => (ne_of_empty rfl hn).elim, by decide, by decide, by decide⟩,
      hm, hm, by decide⟩

theorem test_premises_event_clock_arbiter_laws :
    (∀ p, (listed.port p).EventLaw) ∧ listed.ClockLaw ∧ listed.ArbiterLaw ∧ ∃ t, step listed = .next t := by
  refine ⟨fun p => ?_, ⟨by decide +kernel, by decide +kernel, by decide +kernel, by decide +kernel⟩, fun p => ?_, step_total _⟩
  · cases p <;> exact ⟨List.Pairwise.nil, fun _ h => by cases h⟩
  · cases p <;> decide +kernel

end Sys2Proof.Tests
end

section
/-! ## What an event of one channel leaves alone

The list and the static parameters of the channel, and the burst in flight but for its mark (R64, R82, R113). -/

namespace Sys2Proof.Machine

/-- The list and the static parameters are as they were, and so is the burst in flight, or it is now marked DROP. -/
structure Work.Steady (w v : Work) : Prop where
  list : v.ch.list = w.ch.list
  stat : v.ch.stat = w.ch.stat
  burst : v.burst = w.burst ∨ ∃ b, w.burst = some b ∧ v.burst = some { b with keep := false }

theorem Work.Steady.refl (w : Work) : w.Steady w := ⟨rfl, rfl, .inl rfl⟩

theorem Work.Steady.trans {w v x : Work} (h : w.Steady v) (k : v.Steady x) : w.Steady x := by
  refine ⟨k.list.trans h.list, k.stat.trans h.stat, ?_⟩
  rcases h.burst with hb | ⟨b, hw, hv⟩ <;> rcases k.burst with kb | ⟨b', kv, kx⟩
  · exact .inl (kb.trans hb)
  · exact .inr ⟨b', hb ▸ kv, kx⟩
  · exact .inr ⟨b, hw, kb.trans hv⟩
  · obtain rfl : { b with keep := false } = b' := Option.some.inj (hv.symm.trans kv)
    exact .inr ⟨b, hw, kx⟩

/-- The same, for a step whose end is known before its middle. -/
theorem Work.Steady.after {w v x : Work} (k : v.Steady x) (h : w.Steady v) : w.Steady x := h.trans k

/-- An event that leaves the burst alone and touches neither the list nor the static parameters. -/
theorem Work.Steady.of_ch {w v : Work} (hl : v.ch.list = w.ch.list) (hs : v.ch.stat = w.ch.stat)
    (hb : v.burst = w.burst) : w.Steady v := ⟨hl, hs, .inl hb⟩

/-- A condition chooses between two steady events. -/
theorem Work.Steady.ite {w v x : Work} {q : Prop} [Decidable q] (h : w.Steady v) (k : w.Steady x) :
    w.Steady (if q then v else x) := by
  split
  · exact h
  · exact k

theorem Work.Steady.dropBurst {w v : Work} (c : ChanId) (hl : v.ch.list = w.ch.list) (hs : v.ch.stat = w.ch.stat)
    (hb : v.burst = Sys2Proof.Machine.dropBurst c w.burst) : w.Steady v := by
  refine ⟨hl, hs, ?_⟩
  rcases dropBurst_cases c w.burst with h | ⟨b, h1, _, h2⟩
  · exact .inl (hb.trans h)
  · exact .inr ⟨b, h1, hb.trans h2⟩

/-! ### Records, flushes and redirections -/

theorem Work.raise_steady (w : Work) (k : Kind) : w.Steady (w.raise k) := .of_ch rfl rfl rfl

theorem Work.applyStaged_steady (w : Work) : w.Steady w.applyStaged := by
  obtain ⟨hb, hc⟩ := w.applyStaged_frame
  exact .of_ch (congrArg Chan.list hc :) (congrArg Chan.stat hc :) hb

theorem Work.startOfTick_steady (w : Work) : w.Steady w.startOfTick :=
  .ite ((Work.applyStaged_steady _).after (.of_ch rfl rfl rfl)) (.of_ch rfl rfl rfl)

theorem Work.applyAtPass_steady (w : Work) : w.Steady w.applyAtPass := .ite w.applyStaged_steady (.refl w)

theorem Work.applyAtEntry_steady (w : Work) : w.Steady w.applyAtEntry := .ite w.applyStaged_steady (.refl w)

theorem Work.flush_steady (c : ChanId) (w : Work) : w.Steady (w.flush c) := .dropBurst c rfl rfl rfl

theorem Work.refetchFrom_steady (c : ChanId) (t : EntryIx) (w : Work) : w.Steady (w.refetchFrom c t) :=
  .dropBurst c rfl rfl rfl

theorem Chan.cursorPastPass_steady (k : Chan) (cur : Cursor) :
    (k.cursorPastPass cur).list = k.list ∧ (k.cursorPastPass cur).stat = k.stat :=
  ⟨(congrArg Chan.list (k.cursorPastPass_frame cur) :), (congrArg Chan.stat (k.cursorPastPass_frame cur) :)⟩

theorem Work.dropPass_steady (c : ChanId) (w : Work) : w.Steady (w.dropPass c) := by
  unfold Work.dropPass
  split
  · exact .of_ch rfl rfl rfl
  · refine .dropBurst c ?_ ?_ rfl <;> dsimp only <;> split
    · rfl
    · split
      · exact (Chan.cursorPastPass_steady _ _).1
      · rfl
    · rfl
    · split
      · exact (Chan.cursorPastPass_steady _ _).2
      · rfl

theorem Work.jumpRedirect_steady (c : ChanId) (t : EntryIx) (w : Work) : w.Steady (w.jumpRedirect c t) := by
  unfold Work.jumpRedirect
  split
  · exact .dropBurst c rfl rfl rfl
  · exact .ite (.of_ch rfl rfl rfl) (.of_ch rfl rfl rfl)

/-! ### The course of play -/

theorem Work.enterIdle_steady (c : ChanId) (w : Work) : w.Steady (w.enterIdle c) := by
  unfold Work.enterIdle
  refine (Work.applyStaged_steady _).after ?_
  dsimp only [Chan.silenceMarkers, Chan.clearLatches]
  exact (w.flush_steady c).trans (.of_ch rfl rfl rfl)

theorem Work.halt_steady (c : ChanId) (cause : FaultCause) (w : Work) : w.Steady (w.halt c cause) := by
  unfold Work.halt
  refine (Work.applyStaged_steady _).after ?_
  dsimp only [Work.raise, Chan.place, Chan.silenceMarkers, Chan.clearLatches]
  exact (w.flush_steady c).trans (.of_ch rfl rfl rfl)

theorem Work.startEntry_steady (w : Work) : w.Steady w.startEntry := by
  unfold Work.startEntry
  dsimp only
  split <;> exact (Work.applyAtEntry_steady _).after (.of_ch rfl rfl rfl)

theorem Work.enterEntry_steady (t : EntryIx) (carry : Nat) (w : Work) : w.Steady (w.enterEntry t carry) :=
  .ite ((Work.startEntry_steady _).after (.of_ch rfl rfl rfl))
    (.ite ((Work.startEntry_steady _).after (.of_ch rfl rfl rfl)) (.of_ch rfl rfl rfl))

theorem Work.listEnd_steady (c : ChanId) (carry : Nat) (afterLeave : Bool) (w : Work) :
    w.Steady (w.listEnd c carry afterLeave) := by
  refine .ite ((Work.enterEntry_steady _ _ _).after (.ite (w.refetchFrom_steady c 0) (.refl w))) ?_
  have h : w.Steady ({ w with ch := { w.ch with pos := carry } }.enterIdle c) :=
    (Work.enterIdle_steady c _).after (.of_ch rfl rfl rfl)
  exact .ite ((h.trans (Work.raise_steady _ _)).trans (Work.raise_steady _ _)) (h.trans (Work.raise_steady _ _))

theorem Work.afterPass_steady (c : ChanId) (carry : Nat) (w : Work) : w.Steady (w.afterPass c carry) := by
  unfold Work.afterPass
  dsimp only
  refine .ite ((Work.raise_steady _ _).after ((Work.enterIdle_steady c _).after (.of_ch rfl rfl rfl))) ?_
  split
  · exact (Work.enterEntry_steady _ _ _).after (.of_ch rfl rfl rfl)
  · refine .ite ?_ (.ite ?_ ?_)
    · split
      · exact ((Work.refetchFrom_steady c _ _).trans (Work.enterEntry_steady _ _ _)).after (.of_ch rfl rfl rfl)
      · exact (Work.listEnd_steady c _ _ _).after (.of_ch rfl rfl rfl)
    · split <;> exact (Work.applyAtPass_steady _).after (.of_ch rfl rfl rfl)
    · split
      · exact Work.enterEntry_steady _ _ _
      · exact Work.listEnd_steady c _ _ _

theorem Work.passEnd_steady (c : ChanId) (length : Nat) (w : Work) : w.Steady (w.passEnd c length) :=
  (w.dropPass_steady c).trans ((Work.afterPass_steady c _ _).after (.of_ch rfl rfl rfl))

theorem Work.beginTick_steady (w : Work) : w.Steady w.beginTick.1 := by
  unfold Work.beginTick
  split
  · exact .refl w
  · exact .refl w
  · exact .refl w
  · split
    · exact (Work.enterEntry_steady _ _ _).after (.of_ch rfl rfl rfl)
    · exact .refl w
  · exact w.startOfTick_steady
  · exact w.startOfTick_steady
  · dsimp only
    split_ifs
    · exact w.startOfTick_steady
    · exact w.startOfTick_steady.trans ((Work.startEntry_steady _).after (.of_ch rfl rfl rfl))
    · exact w.startOfTick_steady.trans ((Work.startEntry_steady _).after (.of_ch rfl rfl rfl))
    · exact w.startOfTick_steady

theorem Work.compute_steady (a b : Sample) (h : Int) (w : Work) : w.Steady (w.compute a b h) := by
  unfold Work.compute Work.clipTick
  dsimp only [Work.raise, Chan.place, Chan.countMarkers, Chan.compareMarkers]
  split
  · split <;> exact .of_ch rfl rfl rfl
  · exact .of_ch rfl rfl rfl

theorem Work.stall_steady (w : Work) : w.Steady w.stall := .ite (.of_ch rfl rfl rfl) (.of_ch rfl rfl rfl)

theorem Work.tickWord_steady (segs : Vector SegRec 256) (h : Int) (w : Work) : w.Steady (w.tickWord segs h).1 := by
  have hw := w.beginTick_steady
  unfold Work.tickWord
  split
  case h_5 w1 heq =>
    rw [heq] at hw
    have hc : w.Steady w1.consult := hw.trans (.of_ch rfl rfl rfl)
    dsimp only
    split
    · exact hc.trans (Work.compute_steady _ _ _ _)
    · exact hc.trans (Work.stall_steady _)
  all_goals
    rename_i w1 heq
    rw [heq] at hw
    exact hw.trans (.of_ch rfl rfl rfl)

theorem Work.tickEnd_steady (segs : Vector SegRec 256) (c : ChanId) (r : Rest) (w : Work) :
    w.Steady (w.tickEnd segs c r) := by
  cases r with
  | nothing => exact .refl w
  | stop => exact (w.enterIdle_steady c).trans (Work.raise_steady _ _)
  | starve => exact w.halt_steady c .starved
  | moved => exact .ite (w.passEnd_steady c _) (.refl w)

theorem Work.triggerEvent_steady (deaf : Bool) (src : Source) (w : Work) : w.Steady (w.triggerEvent deaf src) := by
  obtain ⟨hb, hc⟩ := w.triggerEvent_frame deaf src
  exact .of_ch (congrArg Chan.list hc :) (congrArg Chan.stat hc :) hb

theorem Work.loseClock_steady (c : ChanId) (w : Work) : w.Steady (w.loseClock c) := by
  unfold Work.loseClock
  split
  · exact w.halt_steady c .clockLost
  · exact w.halt_steady c .clockLost
  · exact w.halt_steady c .clockLost
  · exact .of_ch rfl rfl rfl
  · exact .of_ch rfl rfl rfl
  · exact .of_ch rfl rfl rfl
  · exact .refl w

/-! ### Commands on one channel -/

theorem Work.arm_steady (c : ChanId) (w : Work) : w.Steady (w.arm c) :=
  (w.flush_steady c).trans (.of_ch rfl rfl rfl)

theorem Work.disarm_steady (c : ChanId) (w : Work) : w.Steady (w.disarm c) :=
  (w.flush_steady c).trans (.of_ch rfl rfl rfl)

theorem Work.flushFor_steady (c : ChanId) (mode : StopPoint) (w : Work) : w.Steady (w.flushFor c mode) :=
  .ite (w.flush_steady c) (.refl w)

theorem Work.stopCommand_steady (c : ChanId) (mode : StopPoint) (w : Work) : w.Steady (w.stopCommand c mode) := by
  unfold Work.stopCommand
  split
  · exact .refl w
  · exact .refl w
  · exact w.disarm_steady c
  · exact w.disarm_steady c
  · exact (Work.flushFor_steady c mode _).after (.of_ch rfl rfl rfl)
  · exact (Work.flushFor_steady c mode _).after (.ite (.of_ch rfl rfl rfl) (.refl w))
  · exact (Work.flush_steady c _).after (.of_ch rfl rfl rfl)

theorem Work.jumpCommand_steady (c : ChanId) (t : EntryIx) (w : Work) : w.Steady (w.jumpCommand c t) := by
  refine .ite ?_ ((Work.jumpRedirect_steady c t _).after (.of_ch rfl rfl rfl))
  unfold Work.jumpWaiting
  dsimp only
  refine .trans ?_ (Work.refetchFrom_steady c t _)
  split_ifs <;> exact .of_ch rfl rfl rfl

end Sys2Proof.Machine
end

section
/-! ## What each command leaves alone

The state is looked at under nine aspects; `touches` says under which of them a command can change it, and
`exec_sameBut` that it changes it under no other. -/

namespace Sys2Proof.Machine

/-- The aspects under which the state is compared. -/
inductive Aspect where
  | slots
  | burst
  | pages
  | lists
  | statics
  | claims
  | modes
  | drivers
  | enables
  deriving DecidableEq

/-- The state is the same under an aspect. Of the burst in flight this is that it keeps within its page (R11); of the
pages, their records, the two page lists and every segment's pages, no segment becoming FREE. -/
def Aspect.Same : Aspect → State → State → Prop
  | .slots, s, t => t.mem = s.mem ∧ t.resets = s.resets
  | .burst, s, t => (∀ b ∈ s.burst, b.inPage) → ∀ b ∈ t.burst, b.inPage
  | .pages, s, t => t.pages = s.pages ∧ t.freeList = s.freeList ∧ t.retired = s.retired
      ∧ ∀ i, (t.seg i).pages = (s.seg i).pages ∧ ((t.seg i).state = .free → (s.seg i).state = .free)
  | .lists, s, t => ∀ c, (t.chan c).list = (s.chan c).list
  | .statics, s, t => ∀ c, (t.chan c).stat = (s.chan c).stat
  | .claims, s, t => t.claims = s.claims
  | .modes, s, t => t.modes = s.modes
  | .drivers, s, t => t.drivers = s.drivers
  | .enables, s, t => ∀ p, (t.port p).enable = (s.port p).enable

theorem Aspect.Same.refl (a : Aspect) (s : State) : a.Same s s := by
  cases a
  case burst => exact id
  case slots => exact ⟨rfl, rfl⟩
  case pages => exact ⟨rfl, rfl, rfl, fun _ => ⟨rfl, id⟩⟩
  all_goals first | exact fun _ => rfl | exact (rfl : _ = _)

theorem Aspect.Same.trans {a : Aspect} {s u t : State} (h : a.Same s u) (k : a.Same u t) : a.Same s t := by
  cases a
  case burst => exact k ∘ h
  case slots => exact ⟨k.1.trans h.1, k.2.trans h.2⟩
  case pages =>
    obtain ⟨h1, h2, h3, h4⟩ := h
    obtain ⟨k1, k2, k3, k4⟩ := k
    exact ⟨k1.trans h1, k2.trans h2, k3.trans h3,
      fun i => ⟨(k4 i).1.trans (h4 i).1, (h4 i).2 ∘ (k4 i).2⟩⟩
  case claims | modes | drivers => exact Eq.trans k h
  all_goals exact fun x => (k x).trans (h x)

/-- The state is the same under every aspect but the listed ones. -/
def SameBut (l : List Aspect) (s t : State) : Prop := ∀ a, a ∉ l → a.Same s t

theorem SameBut.refl (l : List Aspect) (s : State) : SameBut l s s := fun a _ => .refl a s

theorem SameBut.trans {l : List Aspect} {s u t : State} (h : SameBut l s u) (k : SameBut l u t) : SameBut l s t :=
  fun a ha => (h a ha).trans (k a ha)

/-- The same, for a step whose end is known before its middle. -/
theorem SameBut.after {l : List Aspect} {s u t : State} (k : SameBut l u t) (h : SameBut l s u) : SameBut l s t :=
  h.trans k

theorem SameBut.mono {l m : List Aspect} {s t : State} (h : SameBut l s t) (hl : l ⊆ m) : SameBut m s t :=
  fun a ha => h a fun hx => ha (hl hx)

/-- What is the same under every aspect is the same under all but some. -/
theorem SameBut.quiet {l : List Aspect} {s t : State} (h : SameBut [] s t) : SameBut l s t := h.mono (List.nil_subset l)

theorem SameBut.ite {l : List Aspect} {s t u : State} {q : Prop} [Decidable q] (h : SameBut l s t) (k : SameBut l s u) :
    SameBut l s (if q then t else u) := by
  split
  · exact h
  · exact k

theorem SameBut.foldl {α : Type} {l : List Aspect} {f : State → α → State} (h : ∀ s x, SameBut l s (f s x))
    (xs : List α)
    (s : State) : SameBut l s (xs.foldl f s) := by
  induction xs generalizing s with
  | nil => exact .refl l s
  | cons x r ih => exact (h s x).trans (ih _)

/-! ### Updates of single fields -/

/-- No aspect speaks of these fields. -/
theorem SameBut.of_rest {s t : State}
    (h : { s with
      pending := t.pending, resetHeld := t.resetHeld, loads := t.loads, monitor := t.monitor, ticks := t.ticks
      arb := t.arb, judged := t.judged, syncEvents := t.syncEvents } = t) : SameBut [] s t := by
  rw [← h]
  intro a _
  have hs := Aspect.Same.refl a s
  cases a <;> exact hs

theorem setPort_sameBut (l : List Aspect) (s : State) (p : Port) (r : PortRec)
    (h : .enables ∉ l → r.enable = (s.port p).enable) : SameBut l s (s.setPort p r) := by
  intro a ha
  have hs := Aspect.Same.refl a s
  cases a
  case enables =>
    intro q
    rw [State.setPort_port]
    split
    case isTrue e => rw [e, h ha]
    case isFalse => rfl
  all_goals exact hs

theorem setPort_same (s : State) (p : Port) (r : PortRec) (h : r.enable = (s.port p).enable) :
    SameBut [] s (s.setPort p r) := setPort_sameBut [] s p r fun _ => h

theorem setChan_sameBut (l : List Aspect) (s : State) (c : ChanId) (k : Chan)
    (hl : .lists ∉ l → k.list = (s.chan c).list) (ht : .statics ∉ l → k.stat = (s.chan c).stat) :
    SameBut l s (s.setChan c k) := by
  intro a ha
  have hs := Aspect.Same.refl a s
  cases a
  case lists =>
    intro d
    rw [State.setChan_chan]
    split
    case isTrue e => rw [e, hl ha]
    case isFalse => rfl
  case statics =>
    intro d
    rw [State.setChan_chan]
    split
    case isTrue e => rw [e, ht ha]
    case isFalse => rfl
  all_goals exact hs

theorem setChan_same (s : State) (c : ChanId) (k : Chan) (hl : k.list = (s.chan c).list)
    (hs : k.stat = (s.chan c).stat) :
    SameBut [] s (s.setChan c k) := setChan_sameBut [] s c k (fun _ => hl) (fun _ => hs)

theorem setSeg_sameBut (l : List Aspect) (s : State) (i : SegId) (r : SegRec)
    (h : .pages ∉ l → r.pages = (s.seg i).pages ∧ (r.state = .free → (s.seg i).state = .free)) :
    SameBut l s (s.setSeg i r) := by
  intro a ha
  have hs := Aspect.Same.refl a s
  cases a
  case pages =>
    refine ⟨rfl, rfl, rfl, fun j => ?_⟩
    rw [State.setSeg_seg]
    split
    case isTrue e => exact e ▸ h ha
    case isFalse => exact ⟨rfl, id⟩
  all_goals exact hs

theorem setSeg_same (s : State) (i : SegId) (r : SegRec) (hp : r.pages = (s.seg i).pages)
    (hf : r.state = .free → (s.seg i).state = .free) : SameBut [] s (s.setSeg i r) :=
  setSeg_sameBut [] s i r fun _ => ⟨hp, hf⟩

theorem setSeg_samePages (s : State) (i : SegId) (r : SegRec) : SameBut [.pages] s (s.setSeg i r) :=
  setSeg_sameBut _ s i r fun h => absurd List.mem_cons_self h

theorem setLoad_same (s : State) (p : Port) (u : LoadUnit) : SameBut [] s (s.setLoad p u) := .of_rest rfl

theorem setPassOver_same (s : State) (p : Port) (n : Nat) : SameBut [] s (s.setPassOver p n) := .of_rest rfl

theorem setTick_same (s : State) (c : ChanId) (t : TickStatus) : SameBut [] s (s.setTick c t) := .of_rest rfl

theorem setBurst_same (s : State) (o : Option Burst) (h : (∀ b ∈ s.burst, b.inPage) → ∀ b ∈ o, b.inPage) :
    SameBut [] s { s with burst := o } := by
  intro a _
  have hs := Aspect.Same.refl a s
  cases a
  case burst => exact h
  all_goals exact hs

theorem noBurst_same (s : State) : SameBut [] s { s with burst := none } :=
  setBurst_same s none fun _ _ hb => by cases hb

/-- Page records and page lists changed. -/
theorem pages_same (s : State) (pg : Vector PageRec 2048) (fl rt : List PageNo) :
    SameBut [.pages] s { s with pages := pg, freeList := fl, retired := rt } := by
  intro a ha
  have hs := Aspect.Same.refl a s
  cases a
  case pages => exact absurd List.mem_cons_self ha
  all_goals exact hs

theorem mem_same (s : State) (m : Memory) :
    SameBut [.slots] s { s with mem := m } := by
  intro a ha
  have hs := Aspect.Same.refl a s
  cases a
  case slots => exact absurd List.mem_cons_self ha
  all_goals exact hs

theorem claims_same (s : State) (k : Vector Claim 8) :
    SameBut [.claims] s { s with claims := k } := by
  intro a ha
  have hs := Aspect.Same.refl a s
  cases a
  case claims => exact absurd List.mem_cons_self ha
  all_goals exact hs

theorem modes_same (s : State) (m : Vector EdgeMode 8) :
    SameBut [.modes] s { s with modes := m } := by
  intro a ha
  have hs := Aspect.Same.refl a s
  cases a
  case modes => exact absurd List.mem_cons_self ha
  all_goals exact hs

theorem drivers_same (s : State) (d : Vector (Option (ChanId × MkUnit)) 4) :
    SameBut [.drivers] s { s with drivers := d } := by
  intro a ha
  have hs := Aspect.Same.refl a s
  cases a
  case drivers => exact absurd List.mem_cons_self ha
  all_goals exact hs

/-- The mark of a burst says nothing of where it lies. -/
theorem Burst.inPage_keep (b : Burst) (k : Bool) : ({ b with keep := k }).inPage ↔ b.inPage := .rfl

/-! ### Ports -/

theorem respond_same (s : State) (p : Port) (e : Byte) (st : Status) (pl : List Byte) :
    SameBut [] s (s.respond p e st pl) := setPort_same s p _ rfl

theorem clockOut_same (s : State) (p : Port) (n : Nat) : SameBut [] s (s.clockOut p n) := setPort_same s p _ rfl

theorem raiseTo_same (s : State) (p : Port) (src : EventSource) (k : Kind) (d : Detail) :
    SameBut [] s (s.raiseTo p src k d) := setPort_same s p _ rfl

theorem raiseBoth_same (s : State) (src : EventSource) (k : Kind) : SameBut [] s (s.raiseBoth src k) :=
  (raiseTo_same s _ _ _ _).trans (raiseTo_same _ _ _ _ _)

theorem raiseAll_same (s : State) (c : ChanId) (ks : List Kind) : SameBut [] s (s.raiseAll c ks) :=
  .foldl (fun t k => raiseBoth_same t _ k) ks s

/-- A frame changes the state under the aspects its command does. -/
theorem SameBut.onPort {l : List Aspect} {p : Port} {n : Nat} {s : State} {act : State → State}
    (h : ∀ u, SameBut l u (act u)) : SameBut l s (Sys2Proof.Machine.onPort p n s act) := by
  refine .ite (.refl l s) ?_
  have hc : SameBut l s (s.clockOut p n) := (clockOut_same s p n).quiet
  dsimp only
  split
  · exact hc.trans (SameBut.quiet (by exact setPort_same _ _ _ rfl))
  · exact hc.trans ((h _).after (SameBut.quiet (by exact setPort_same _ _ _ rfl)))
  · exact hc.trans (h _)

/-! ### Channels -/

theorem putWork_same (s : State) (c : ChanId) (w : Work) (h : (s.work c).Steady w) : SameBut [] s (s.putWork c w) := by
  refine .trans ?_ (raiseAll_same _ c w.raised)
  refine (setChan_same s c w.ch h.list h.stat).trans (setBurst_same _ _ fun hs b hb => ?_)
  rcases h.burst with e | ⟨x, hx, e⟩
  · exact hs b (e.symm.trans hb)
  · obtain rfl : { x with keep := false } = b := Option.some.inj (e.symm.trans hb)
    exact (Burst.inPage_keep x false).2 (hs x hx)

theorem triggerBy_same (s : State) (own : Option ChanId) (src : Source) : SameBut [] s (s.triggerBy own src) :=
  .foldl (fun t c => putWork_same t c _ (Work.triggerEvent_steady _ src _)) _ s

theorem trigger_same (s : State) (src : Source) : SameBut [] s (s.trigger src) := triggerBy_same s none src

theorem reach_same (s : State) (e : SyncEvent) : SameBut [] s (s.reach e) := triggerBy_same s _ _

theorem deliverLines_same (s t : State) : SameBut [] t (s.deliverLines t) :=
  .foldl (fun u l => trigger_same u (.syn l)) _ t

theorem noteLines_same (s : State) (c : ChanId) (t : State) : SameBut [] t (s.noteLines c t) := .of_rest rfl

theorem loseAll_same (s : State) : SameBut [] s s.loseAll :=
  .foldl (fun t c => putWork_same t c _ (Work.loseClock_steady c _)) _ s

/-! ### Grants (R104, R24, R35) -/

theorem fetchBurst_inPage (c : ChanId) (r : SegRec) (e : Entry) (cur : Cursor) (held : Nat) :
    (fetchBurst c r e cur held).inPage := by
  unfold Burst.inPage fetchBurst
  dsimp only
  cases e.reversed cur.pass
  · simp only [Bool.not_false, if_true, Bool.false_eq_true, if_false]
    omega
  · simp only [Bool.not_true, if_true, Bool.false_eq_true, if_false]
    omega

theorem drainBurst_inPage (p : Port) (r : SegRec) (u : LoadUnit) : (drainBurst p r u).inPage := by
  change u.wpos % 256 + min 32 (min u.buffer.length (256 - u.wpos % 256)) ≤ 256
  omega

theorem readBurst_inPage (p : Port) (r : SegRec) (rb : Readback) : (readBurst p r rb).inPage := by
  change rb.next % 256 + min 32 (min rb.remaining (256 - rb.next % 256)) ≤ 256
  omega

/-- A burst granted lies within one page. -/
theorem grant_same (s : State) (b : Burst) (h : b.inPage) : SameBut [] s { s with burst := some b } :=
  setBurst_same s _ fun _ x hx => by
    obtain rfl := Option.some.inj hx
    exact h

theorem grantFetch_same (s : State) (c : ChanId) : SameBut [] s (s.grantFetch c) := by
  unfold State.grantFetch
  dsimp only
  split
  · exact .refl _ s
  · split
    · exact .refl _ s
    · refine (setChan_same s c _ ?_ ?_).trans (grant_same _ _ (fetchBurst_inPage _ _ _ _ _))
      · exact (congrArg Chan.list (Chan.moveCursor_frame _ _ _ _) :)
      · exact (congrArg Chan.stat (Chan.moveCursor_frame _ _ _ _) :)

theorem grantLoad_same (s : State) (p : Port) : SameBut [] s (s.grantLoad p) := by
  refine .ite ?_ ?_
  · split
    · exact grant_same s _ (drainBurst_inPage _ _ _)
    · exact .refl _ s
  · split
    · exact grant_same s _ (readBurst_inPage _ _ _)
    · exact .refl _ s

theorem arbitrate_same (s : State) : SameBut [] s s.arbitrate := by
  unfold State.arbitrate
  split
  · exact .refl _ s
  · split
    · exact .refl _ s
    · refine .trans ?_ (.of_rest rfl)
      split
      · exact grantFetch_same s _
      · exact grantLoad_same s _

/-! ### Output ticks and the clock -/

theorem tickOne_same (s : State) (c : ChanId) : SameBut [] s (s.tickOne c) := by
  unfold State.tickOne
  dsimp only
  refine .trans ?_ (arbitrate_same _)
  refine .trans ?_ (setTick_same _ c _)
  refine .trans ?_ (noteLines_same _ c _)
  refine .trans ?_ (putWork_same _ c _ (Work.tickEnd_steady _ c _ _))
  exact (putWork_same s c _ (Work.tickWord_steady _ _ _)).trans (noteLines_same s c _)

theorem tickChannel_same (s : State) (c : ChanId) : SameBut [] s (s.tickChannel c) :=
  (tickOne_same s c).trans (.foldl tickOne_same _ _)

theorem finishTicks_same (s : State) : SameBut [] s s.finishTicks :=
  .foldl (fun t c => .ite (tickOne_same t c) (.refl _ t)) _ s

theorem deliverAll_same (s : State) : SameBut [] s s.deliverAll := by
  have h : SameBut [] s { s with syncEvents := [] } := .of_rest rfl
  exact h.trans (.foldl reach_same _ _)

theorem finishEdge_same (s : State) : SameBut [] s s.finishEdge := (finishTicks_same s).trans (deliverAll_same _)

theorem clocked_same (s : State) (m : Monitor) (k : Vector TickStatus 8) :
    SameBut [] s { s with monitor := m, ticks := k } := .of_rest rfl

theorem judgePin_same (s : State) (n : Fin 4) (level : Bool) : SameBut [] s (s.judgePin n level) := by
  refine .ite (.refl _ s) ?_
  have h : SameBut [] s { s with judged := s.judged.set n level } := .of_rest rfl
  exact .ite (h.trans (trigger_same _ _)) h

theorem clockIsLost_same (s : State) : SameBut [] s s.clockIsLost := by
  refine .trans ?_ (deliverLines_same _ _)
  refine .trans ?_ (loseAll_same _)
  refine .trans ?_ (raiseBoth_same _ _ _)
  exact (finishEdge_same s).trans (clocked_same _ _ _)

theorem clockIsBack_same (s : State) : SameBut [] s s.clockIsBack := by
  exact (clocked_same s _ _).trans (raiseBoth_same _ _ _)

theorem refclkPeriod_same (s : State) : SameBut [] s s.refclkPeriod := by
  refine .ite ?_ ?_
  · split
    · exact clockIsLost_same s
    · exact .of_rest rfl
  · split
    · exact .of_rest rfl
    · refine .ite (.ite ?_ (.of_rest rfl)) (.of_rest rfl)
      exact (clockIsBack_same _).after (.of_rest rfl)

/-! ### Segments and loads -/

theorem givePages_same (s : State) (l : List PageNo) : SameBut [.pages] s (s.givePages l) := by
  obtain ⟨pg, fl, rt, h⟩ := s.givePages_eq l
  rw [h]
  exact pages_same s pg fl rt

theorem dropReadBurst_same (s : State) (p : Port) : SameBut [] s (s.dropReadBurst p) := by
  unfold State.dropReadBurst State.loadBurst
  split
  · rename_i b hb
    refine .ite (.refl _ s) (setBurst_same s _ fun hs x hx => ?_)
    obtain rfl := Option.some.inj hx
    split at hb
    · rename_i y hy
      split at hb
      · exact (Burst.inPage_keep b false).2 (hs b (hy.trans hb))
      · cases hb
    · cases hb
  · exact .refl _ s

theorem cancelReadback_same (s : State) (i : SegId) (p : Port) : SameBut [] s (s.cancelReadback i p) := by
  unfold State.cancelReadback
  dsimp only
  split
  · refine .ite ?_ (.refl _ s)
    refine .trans ?_ (setLoad_same _ p _)
    exact .trans (.ite (setPassOver_same s p 0) (.refl _ s)) (dropReadBurst_same _ p)
  · exact .refl _ s

theorem freeSegment_same (s : State) (i : SegId) : SameBut [.pages] s (s.freeSegment i) := by
  refine .trans ?_ (cancelReadback_same _ i .b).quiet
  refine .trans ?_ (cancelReadback_same _ i .a).quiet
  exact (givePages_same s _).trans (setSeg_samePages _ i _)

theorem answerCancelled_same (s : State) (p : Port) : SameBut [] s (s.answerCancelled p) := by
  unfold State.answerCancelled
  dsimp only
  split
  · exact .ite ((setLoad_same s p _).trans (respond_same _ _ _ _ _)) (.refl _ s)
  · exact .refl _ s

theorem settleCancelled_same (s : State) : SameBut [] s s.settleCancelled :=
  (answerCancelled_same s .a).trans (answerCancelled_same _ .b)

theorem releaseSegment_same (s : State) (i : SegId) : SameBut [.pages] s (s.releaseSegment i) := by
  refine .ite ?_ (SameBut.quiet (by exact setSeg_same s i _ rfl id))
  refine .trans ?_ (freeSegment_same _ i)
  unfold State.raiseFreed
  split
  · exact (raiseTo_same s _ _ _ _).quiet
  · exact .refl _ s

theorem releaseAll_same (s : State) (l : List Entry) : SameBut [.pages] s (s.releaseAll l).1 := by
  induction l generalizing s with
  | nil => exact .refl _ s
  | cons e r ih => exact (releaseSegment_same s e.seg).trans (ih _)

theorem endLoad_same (s : State) (p : Port) : SameBut [.pages] s (s.endLoad p) := by
  refine .trans ?_ (setLoad_same _ p _).quiet
  split
  · exact freeSegment_same s _
  · exact .refl _ s

theorem abortOpen_same (s : State) (p : Port) : SameBut [.pages] s (s.abortOpen p) := by
  have h : SameBut [.pages] s (if s.drainRequest p then s.setPassOver p 0 else s) :=
    .ite (setPassOver_same s p 0).quiet (.refl _ s)
  unfold State.abortOpen
  dsimp only
  split
  · exact h.trans (endLoad_same _ p)
  · exact h.trans (setLoad_same _ p _).quiet

theorem resetLoad_same (s : State) (p : Port) : SameBut [.pages] s (s.resetLoad p) := by
  have h : SameBut [.pages] s
      ((s.dropReadBurst p).setLoad p { (s.dropReadBurst p).loadUnit p with readback := none }) :=
    ((dropReadBurst_same s p).trans (setLoad_same _ p _)).quiet
  exact .ite (h.trans (abortOpen_same _ p)) h

theorem endRead_same (s : State) (b : Burst) : SameBut [.pages] s (s.endRead b) := by
  obtain ⟨pg, fl, rt, h⟩ := s.endRead_eq b
  rw [h]
  exact (noBurst_same s).quiet.trans (pages_same _ pg fl rt)

theorem takePages_same (s : State) (n : Nat) : SameBut [.pages] s (s.takePages n) := by
  obtain ⟨pg, h⟩ := s.takePages_eq n
  rw [h]
  exact pages_same s pg _ _

end Sys2Proof.Machine
end

section
/-! ### The commands -/

namespace Sys2Proof.Machine

/-- The aspects under which a command can change the state. -/
def touches : Instr → List Aspect
  | .openLoad _ _ _ _ _ | .closeLoad _ | .abortLoad _ | .deleteSegment _ _ => [.pages]
  | .putEntry _ _ _ _ | .trimList _ _ _ => [.pages, .lists]
  | .claim _ _ _ _ | .release _ _ => [.claims]
  | .setStatic _ _ _ => [.statics]
  | .setSourceEdge _ _ _ => [.modes]
  | .setSyncDriver _ _ _ => [.drivers]
  | .setEventEnable _ _ => [.enables]
  | .resetPort _ | .portReset _ => [.pages, .claims, .enables]
  | .fetchBurstComplete _ | .drainBurstComplete | .readbackBurstComplete _ => [.slots, .pages]
  | .deviceReset => [.slots, .pages, .lists, .statics, .claims, .modes, .drivers, .enables]
  | _ => []

/-- Two updates in a row, when each touches part of the list. -/
theorem SameBut.seq {l m n : List Aspect} {s u t : State} (h : SameBut l s u) (k : SameBut m u t) (hl : l ⊆ n)
    (hm : m ⊆ n) : SameBut n s t := (h.mono hl).trans (k.mono hm)

/-- OPEN-LOAD, CLOSE-LOAD -/
theorem openOn_same (s : State) (p : Port) (i : SegId) (n : Nat) (v : Visibility) (label : Option Half) :
    SameBut [.pages] s (s.openOn p i n v label) :=
  ((takePages_same s _).trans (setSeg_samePages _ i _)).trans (setLoad_same _ p _).quiet

theorem closeOn_same (s : State) (p : Port) (i : SegId) : SameBut [.pages] s (s.closeOn p i).1 := by
  unfold State.closeOn
  dsimp only
  split
  · exact (setSeg_samePages s i _).trans (setLoad_same _ p _).quiet
  · split
    · exact (freeSegment_same s i).trans (setLoad_same _ p _).quiet
    · exact ((setSeg_samePages s i _).trans (givePages_same _ _)).trans (setLoad_same _ p _).quiet

theorem deleteOn_same {s t : State} {p : Port} {i : SegId} (h : s.deleteOn p i = .ok t) : SameBut [.pages] s t := by
  unfold State.deleteOn at h
  dsimp only at h
  split at h
  · cases h
  · split at h <;> cases h
  · split at h <;> cases h
    exact .refl _ s
  · split at h
    · split at h <;> cases h
      · exact freeSegment_same s i
      · exact setSeg_samePages s i _
    · cases h

theorem bindSegment_same (s : State) (i : SegId) : SameBut [] s (s.bindSegment i) :=
  setSeg_same s i _ rfl id

theorem putOn_same (s : State) (c : ChanId) (index : Nat) (e : Entry) :
    SameBut [.pages, .lists] s (s.putOn c index e) := by
  have h : ∀ l, SameBut [.pages, .lists] s ((s.setChan c { s.chan c with list := l }).bindSegment e.seg) := fun l =>
    (bindSegment_same _ _).quiet.after (setChan_sameBut _ s c _ (fun h => absurd (by decide) h) fun _ => rfl)
  unfold State.putOn
  dsimp only
  split
  · exact h _
  · exact (h _).trans ((releaseSegment_same _ _).mono (by decide))

theorem trimOn_same (s : State) (c : ChanId) (m : Nat) : SameBut [.pages, .lists] s (s.trimOn c m).1 :=
  ((releaseAll_same _ _).mono (by decide)).after
    (setChan_sameBut _ s c _ (fun h => absurd (by decide) h) fun _ => rfl)

theorem claimOne_same (p : Port) (y k : Bool) (s : State) (c : ChanId) : SameBut [.claims] s (s.claimOne p y k c) := by
  unfold State.claimOne
  split
  · exact .refl _ s
  · exact (claims_same s _).trans (raiseTo_same _ _ _ _ _).quiet
  · exact claims_same s _
  · exact claims_same s _

theorem releaseOne_same (p : Port) (s : State) (c : ChanId) : SameBut [.claims] s (s.releaseOne p c) :=
  .ite (claims_same s _) (.refl _ s)

theorem resetOnePort_same (s : State) (p : Port) : SameBut [.pages, .claims, .enables] s (s.resetOnePort p) := by
  refine .trans ?_ (setPort_sameBut _ _ p _ fun h => absurd (by decide) h)
  refine .trans ?_ (setPassOver_same _ p 0).quiet
  exact ((claims_same s _).mono (by decide)).trans ((resetLoad_same _ p).mono (by decide))

theorem writeEdgeMode_same (s : State) (p : Port) (n : Fin 8) (m : EdgeMode) :
    SameBut [.modes] s (s.writeEdgeMode p n m) :=
  .ite (modes_same s _) ((modes_same s _).trans (raiseTo_same _ _ _ _ _).quiet)

theorem drive_same (s : State) (l : Fin 4) (d : Option (ChanId × MkUnit)) : SameBut [.drivers] s (s.drive l d) :=
  (drivers_same s _).trans (deliverLines_same _ _).quiet

theorem Chan.place_same (k : Chan) (v : Sample) : (k.place v).list = k.list ∧ (k.place v).stat = k.stat := ⟨rfl, rfl⟩

theorem disturb_same (s : State) (us : List Upset) : SameBut [.slots] s (s.disturb us) := mem_same s _

theorem endPrefill_same (s : State) (c : ChanId) : SameBut [] s (s.endPrefill c) :=
  .ite (.after (raiseBoth_same _ _ _) (setChan_same s c _ rfl rfl)) (.refl _ s)

theorem appendFetched_same (s : State) (c : ChanId) (t : FetchTag) (slots : List Slot) :
    SameBut [] s (s.appendFetched c t slots) := by
  unfold State.appendFetched
  dsimp only
  have h := fun k : List Item => setChan_same s c { s.chan c with fifo := k } rfl rfl
  split
  · exact .after (raiseBoth_same _ _ _) (.after (by exact setSeg_same _ _ _ rfl id) (h _))
  · exact h _

theorem fetchDone_same (s : State) (c : ChanId) (b : Burst) : SameBut [.pages] s (s.fetchDone c b) := by
  refine .trans ?_ (arbitrate_same _).quiet
  refine .trans ?_ (endPrefill_same _ c).quiet
  split
  · exact (endRead_same s b).trans (appendFetched_same _ c _ _).quiet
  · exact endRead_same s b

theorem drainDone_same (s : State) (p : Port) (b : Burst) : SameBut [.slots, .pages] s (s.drainDone p b) := by
  have h : SameBut [.slots, .pages] s { s with burst := none, mem := writeSlots b.page s.mem b.slots b.values } :=
    (noBurst_same s).quiet.trans ((mem_same _ _).mono (by decide))
  refine .trans ?_ (arbitrate_same _).quiet
  exact .ite ((h.trans (setLoad_same _ p _).quiet).trans ((endLoad_same _ p).mono (by decide)))
    (h.trans (setLoad_same _ p _).quiet)

theorem takeRead_same (s : State) (p : Port) (slots : List Slot) : SameBut [] s (s.takeRead p slots) := by
  unfold State.takeRead
  dsimp only
  split
  · exact .refl _ s
  · exact .ite ((setLoad_same s p _).trans (respond_same _ _ _ _ _)) (setLoad_same s p _)

theorem dropRead_same (s : State) (p : Port) : SameBut [] s (s.dropRead p) := by
  unfold State.dropRead
  dsimp only
  split
  · exact .ite ((setLoad_same s p _).trans (answerCancelled_same _ p)) (.refl _ s)
  · exact .refl _ s

theorem readDone_same (s : State) (p : Port) (b : Burst) : SameBut [.pages] s (s.readDone p b) := by
  refine .trans ?_ (arbitrate_same _).quiet
  exact (endRead_same s b).trans (SameBut.quiet (.ite (takeRead_same _ p _) (dropRead_same _ p)))

theorem writeStatic_list (k : Chan) (st : StaticParams) : (k.writeStatic st).list = k.list := by
  unfold Chan.writeStatic
  dsimp only
  split_ifs <;> rfl

theorem setUnit_same (k : Chan) (u : MkUnit) (m : Marker) :
    (k.setUnit u m).list = k.list ∧ (k.setUnit u m).stat = k.stat := by
  cases u <;> exact ⟨rfl, rfl⟩

theorem setUnit_state_same (s : State) (c : ChanId) (u : MkUnit) (m : Marker) :
    SameBut [] s (s.setChan c ((s.chan c).setUnit u m)) :=
  setChan_same s c _ (setUnit_same _ u m).1 (setUnit_same _ u m).2

theorem joinGroup_same (s : State) (c : ChanId) : SameBut [] s (s.setChan c (s.chan c).joinGroup) := by
  unfold Chan.joinGroup
  split <;> exact setChan_same s c _ rfl rfl

theorem startCommand_same (s : State) (c : ChanId) : SameBut [] s (s.setChan c (s.chan c).startCommand) := by
  unfold Chan.startCommand
  split <;> exact setChan_same s c _ rfl rfl

theorem setLive_same (s : State) (c : ChanId) (r : PendingRec) (pt : ApplyPoint) :
    SameBut [] s (s.setChan c ((s.chan c).setLive r pt)) := by
  unfold Chan.setLive
  split <;> exact setChan_same s c _ rfl rfl

theorem deliverEvent_same (s : State) (e : SyncEvent) : SameBut [] s (s.deliverEvent e) :=
  .after (reach_same _ e) (.of_rest rfl)

theorem discardFrame_same (s : State) (p : Port) (n : Nat) : SameBut [] s (s.discardFrame p n) :=
  .ite (.onPort fun u => .refl _ u) (.refl _ s)

/-- A step that ends in a response. -/
theorem SameBut.answered {l : List Aspect} {s u : State} (h : SameBut l s u) (p : Port) (e : Byte) (st : Status)
    (pl : List Byte) : SameBut l s (u.respond p e st pl) := h.trans (respond_same u p e st pl).quiet

/-- Every command changes the state only under the aspects it touches. -/
theorem exec_touches (i : Instr) (s : State) : ∃ t, exec i s = .next t ∧ SameBut (touches i) s t := by
  cases i
  case identify p => exact ⟨_, rfl, .onPort fun u => respond_same u _ _ _ _⟩
  case resetPort p => exact ⟨_, rfl, .onPort fun u => (resetOnePort_same u p).answered _ _ _ _⟩
  case queryStore p => exact ⟨_, rfl, .onPort fun u => respond_same u _ _ _ _⟩
  case openLoad p seg declared vis label =>
    refine ⟨_, rfl, .onPort fun u => ?_⟩
    split
    · exact (SameBut.refl _ u).answered _ _ _ _
    · exact (openOn_same u _ _ _ _ _).answered _ _ _ _
  case loadData p samples =>
    exact ⟨_, rfl, .onPort fun u => ((setLoad_same u _ _).answered _ _ _ _).trans (arbitrate_same _)⟩
  case closeLoad p =>
    refine ⟨_, rfl, .onPort fun u => ?_⟩
    dsimp only
    split
    · exact (SameBut.refl _ u).answered _ _ _ _
    · exact .ite ((SameBut.refl _ u).answered _ _ _ _) (.ite ((SameBut.refl _ u).answered _ _ _ _)
        ((closeOn_same u p _).answered _ _ _ _))
  case abortLoad p =>
    refine ⟨_, rfl, .onPort fun u => ?_⟩
    split
    · exact (SameBut.refl _ u).answered _ _ _ _
    · exact (SameBut.refl _ u).answered _ _ _ _
    · exact (abortOpen_same u p).answered _ _ _ _
  case deleteSegment p seg =>
    refine ⟨_, rfl, .onPort fun u => ?_⟩
    split
    · exact (SameBut.refl _ u).answered _ _ _ _
    · rename_i h
      exact ((deleteOn_same h).answered _ _ _ _).trans (settleCancelled_same _).quiet
  case setVisibility p seg vis =>
    refine ⟨_, rfl, .onPort fun u => ?_⟩
    split
    · exact respond_same u _ _ _ _
    · exact SameBut.answered (by exact setSeg_same u _ _ rfl id) _ _ _ _
  case readSegment p seg offset count =>
    refine ⟨_, rfl, .onPort fun u => ?_⟩
    split
    · exact respond_same u _ _ _ _
    · exact .after (arbitrate_same _) ((setLoad_same u _ _).trans (setPort_same _ _ _ rfl))
  case querySegment p seg => exact ⟨_, rfl, .onPort fun u => respond_same u _ _ _ _⟩
  case putEntry p ch index entry =>
    refine ⟨_, rfl, .onPort fun u => ?_⟩
    split
    · exact (SameBut.refl _ u).answered _ _ _ _
    · split
      · exact (SameBut.refl _ u).answered _ _ _ _
      · exact ((putOn_same u _ _ _).answered _ _ _ _).trans (settleCancelled_same _).quiet
  case trimList p ch newLength =>
    refine ⟨_, rfl, .onPort fun u => ?_⟩
    split
    · exact (SameBut.refl _ u).answered _ _ _ _
    · split
      · exact (SameBut.refl _ u).answered _ _ _ _
      · exact ((trimOn_same u _ _).answered _ _ _ _).trans (settleCancelled_same _).quiet
  case queryEntry p ch index =>
    refine ⟨_, rfl, .onPort fun u => ?_⟩
    split
    · exact respond_same u _ _ _ _
    · split <;> exact respond_same u _ _ _ _
  case queryList p ch =>
    refine ⟨_, rfl, .onPort fun u => ?_⟩
    split <;> exact respond_same u _ _ _ _
  case claim p mask yieldable take =>
    exact ⟨_, rfl, .onPort fun u => .ite ((SameBut.refl _ u).answered _ _ _ _)
      ((SameBut.foldl (claimOne_same p yieldable take) _ u).answered _ _ _ _)⟩
  case release p mask =>
    exact ⟨_, rfl, .onPort fun u => .ite ((SameBut.refl _ u).answered _ _ _ _)
      ((SameBut.foldl (releaseOne_same p) _ u).answered _ _ _ _)⟩
  case setStatic p ch args =>
    refine ⟨_, rfl, .onPort fun u => ?_⟩
    split
    · exact (SameBut.refl _ u).answered _ _ _ _
    · split
      · exact (SameBut.refl _ u).answered _ _ _ _
      · exact (setChan_sameBut _ u _ _ (fun _ => writeStatic_list _ _) fun h =>
          absurd List.mem_cons_self h).answered _ _ _ _
  case setLive p ch point args =>
    refine ⟨_, rfl, .onPort fun u => ?_⟩
    split
    · exact respond_same u _ _ _ _
    · split
      · exact respond_same u _ _ _ _
      · exact (setLive_same u _ _ _).answered _ _ _ _
  case applyGroup p mask =>
    exact ⟨_, rfl, .onPort fun u => .ite (respond_same u _ _ _ _) (.ite (respond_same u _ _ _ _)
      ((SameBut.foldl joinGroup_same _ u).answered _ _ _ _))⟩
  case arm p ch =>
    refine ⟨_, rfl, .onPort fun u => ?_⟩
    split
    · exact respond_same u _ _ _ _
    · refine .ite (respond_same u _ _ _ _) (.ite (respond_same u _ _ _ _) ?_)
      split
      · exact respond_same u _ _ _ _
      · exact ((putWork_same u _ _ (Work.arm_steady _ _)).answered _ _ _ _).trans (arbitrate_same _)
  case disarm p ch =>
    refine ⟨_, rfl, .onPort fun u => ?_⟩
    split
    · exact respond_same u _ _ _ _
    · split
      · exact (putWork_same u _ _ (Work.disarm_steady _ _)).answered _ _ _ _
      · exact (putWork_same u _ _ (Work.disarm_steady _ _)).answered _ _ _ _
      all_goals exact respond_same u _ _ _ _
  case start p mask =>
    exact ⟨_, rfl, .onPort fun u => .ite (respond_same u _ _ _ _) (.ite (respond_same u _ _ _ _)
      (.ite (respond_same u _ _ _ _) ((SameBut.foldl startCommand_same _ u).answered _ _ _ _)))⟩
  case stop p mask mode =>
    refine ⟨_, rfl, .onPort fun u => ?_⟩
    split
    · exact respond_same u _ _ _ _
    · exact .ite (respond_same u _ _ _ _) (.ite (respond_same u _ _ _ _)
        ((SameBut.foldl (fun t c => putWork_same t c _ (Work.stopCommand_steady c _ _)) _ u).answered _ _ _ _))
  case jump p ch target =>
    refine ⟨_, rfl, .onPort fun u => ?_⟩
    split
    · exact respond_same u _ _ _ _
    · split
      · exact respond_same u _ _ _ _
      · exact ((putWork_same u _ _ (Work.jumpCommand_steady _ _ _)).answered _ _ _ _).trans (arbitrate_same _)
  case clearFault p ch =>
    refine ⟨_, rfl, .onPort fun u => ?_⟩
    split
    · exact respond_same u _ _ _ _
    · exact .ite (SameBut.answered (by exact setChan_same u _ _ rfl rfl) _ _ _ _) (respond_same u _ _ _ _)
  case queryChannel p ch =>
    refine ⟨_, rfl, .onPort fun u => ?_⟩
    split <;> exact respond_same u _ _ _ _
  case setSourceEdge p source mode =>
    refine ⟨_, rfl, .onPort fun u => ?_⟩
    split
    · exact (SameBut.refl _ u).answered _ _ _ _
    · exact (writeEdgeMode_same u _ _ _).answered _ _ _ _
    · exact (SameBut.refl _ u).answered _ _ _ _
  case setMarker p ch unit args =>
    refine ⟨_, rfl, .onPort fun u => ?_⟩
    split
    · exact respond_same u _ _ _ _
    · exact (setUnit_state_same u _ _ _).answered _ _ _ _
  case setSyncDriver p line driver =>
    refine ⟨_, rfl, .onPort fun u => ?_⟩
    split
    · exact (SameBut.refl _ u).answered _ _ _ _
    · split
      · exact (SameBut.refl _ u).answered _ _ _ _
      · split
        · exact (SameBut.refl _ u).answered _ _ _ _
        · exact .ite ((drive_same u _ _).answered _ _ _ _) ((SameBut.refl _ u).answered _ _ _ _)
  case fire p => exact ⟨_, rfl, .onPort fun u => (trigger_same u _).answered _ _ _ _⟩
  case setEventEnable p kinds =>
    exact ⟨_, rfl, .onPort fun u =>
      (setPort_sameBut [.enables] u p _ fun h => absurd List.mem_cons_self h).answered _ _ _ _⟩
  case takeEvents p => exact ⟨_, rfl, .onPort fun u => SameBut.answered (by exact setPort_same u p _ rfl) _ _ _ _⟩
  case badFrame p bytes =>
    refine ⟨_, rfl, .ite (.refl _ s) ?_⟩
    split
    · exact .onPort fun u => respond_same u _ _ _ _
    · exact discardFrame_same s p _
  case overrun p => exact ⟨_, rfl, discardFrame_same s p 1⟩
  case readTransaction p clocked =>
    refine ⟨_, rfl, .ite (.refl _ s) ?_⟩
    split
    · exact .ite (setPort_same s p _ rfl) (setPort_same s p _ rfl)
    · exact setPort_same s p _ rfl
  case deviceReset =>
    refine ⟨_, rfl, fun a ha => ?_⟩
    cases a
    case burst => exact fun _ b hb => by cases hb
    all_goals exact absurd (by decide) ha
  case resetRelease levels => exact ⟨_, rfl, .ite (.of_rest rfl) (.refl _ s)⟩
  case portReset p =>
    exact ⟨_, rfl, (resetOnePort_same s p).trans (SameBut.quiet (by exact setPort_same _ p _ rfl))⟩
  case prstRelease p => exact ⟨_, rfl, setPort_same s p _ rfl⟩
  case clockLost =>
    refine ⟨_, rfl, ?_⟩
    split
    · exact clockIsLost_same s
    · exact .refl _ s
  case runLengthReset =>
    refine ⟨_, rfl, ?_⟩
    split
    · exact .of_rest rfl
    · exact .refl _ s
  case clockRestored =>
    refine ⟨_, rfl, ?_⟩
    split
    · exact clockIsBack_same s
    · exact .refl _ s
  case outputTick c => exact ⟨_, rfl, .ite (tickChannel_same s c) (.refl _ s)⟩
  case starved c => exact ⟨_, rfl, .ite (tickChannel_same s c) (.refl _ s)⟩
  case markerPulseEnd c u =>
    exact ⟨_, rfl, .ite ((setUnit_state_same s c u _).trans (noteLines_same s c _)) (.refl _ s)⟩
  case trgEdge pin level => exact ⟨_, rfl, .ite (judgePin_same s pin level) (.refl _ s)⟩
  case syncLineEdge line =>
    refine ⟨_, rfl, ?_⟩
    split
    · exact (finishTicks_same s).trans (deliverEvent_same _ _)
    · exact .refl _ s
  case fetchBurstComplete us =>
    refine ⟨_, rfl, ?_⟩
    split
    · split
      · exact (disturb_same s us).seq (n := [.slots, .pages]) (fetchDone_same _ _ _) (by decide) (by decide)
      · exact .refl _ s
    · exact .refl _ s
  case drainBurstComplete =>
    refine ⟨_, rfl, ?_⟩
    split
    · split
      · exact drainDone_same s _ _
      · exact .refl _ s
    · exact .refl _ s
  case readbackBurstComplete us =>
    refine ⟨_, rfl, ?_⟩
    split
    · split
      · exact (disturb_same s us).seq (n := [.slots, .pages]) (readDone_same _ _ _) (by decide) (by decide)
      · exact .refl _ s
    · exact .refl _ s
  case sclkRisingEdge =>
    refine ⟨_, rfl, (finishEdge_same s).trans ?_⟩
    dsimp only
    split <;> exact clocked_same _ _ _
  case judgedLevelChange pin level => exact ⟨_, rfl, .ite (.refl _ s) (judgePin_same s pin level)⟩

theorem exec_sameBut {i : Instr} {s t : State} (h : exec i s = .next t) : SameBut (touches i) s t := by
  obtain ⟨u, hu, hs⟩ := exec_touches i s
  cases hu.symm.trans h
  exact hs

end Sys2Proof.Machine
end

section
/-! ### Which commands touch an aspect -/

namespace Sys2Proof.Machine

theorem mem_touches_slots (i : Instr) : .slots ∈ touches i ↔
    i = .drainBurstComplete ∨ i = .deviceReset ∨ (∃ us, i = .fetchBurstComplete us)
      ∨ ∃ us, i = .readbackBurstComplete us := by
  cases i <;> simp [touches]

theorem burst_not_touched (i : Instr) : .burst ∉ touches i := by
  cases i <;> simp [touches]

theorem mem_touches_lists (i : Instr) : .lists ∈ touches i ↔
    i = .deviceReset ∨ (∃ p ch x e, i = .putEntry p ch x e) ∨ ∃ p ch m, i = .trimList p ch m := by
  cases i <;> simp [touches]

theorem mem_touches_statics (i : Instr) : .statics ∈ touches i ↔
    i = .deviceReset ∨ ∃ p ch a, i = .setStatic p ch a := by
  cases i <;> simp [touches]

theorem mem_touches_claims (i : Instr) : .claims ∈ touches i ↔
    i = .deviceReset ∨ (∃ p m y k, i = .claim p m y k) ∨ (∃ p m, i = .release p m) ∨ (∃ p, i = .portReset p)
      ∨ ∃ p, i = .resetPort p := by
  cases i <;> simp [touches]

theorem mem_touches_modes (i : Instr) : .modes ∈ touches i ↔
    i = .deviceReset ∨ ∃ p x m, i = .setSourceEdge p x m := by
  cases i <;> simp [touches]

theorem mem_touches_drivers (i : Instr) : .drivers ∈ touches i ↔
    i = .deviceReset ∨ ∃ p l d, i = .setSyncDriver p l d := by
  cases i <;> simp [touches]

theorem mem_touches_enables (i : Instr) : .enables ∈ touches i ↔
    i = .deviceReset ∨ (∃ p k, i = .setEventEnable p k) ∨ (∃ p, i = .portReset p) ∨ ∃ p, i = .resetPort p := by
  cases i <;> simp [touches]

/-! ### Lists of active channels (R64) -/

/-- A frame is not seen or not taken, which changes the ports at most, or its command acts with the ports changed. -/
theorem onPort_cases (p : Port) (n : Nat) (s : State) (act : State → State) :
    ∃ ps, onPort p n s act = { s with ports := ps } ∨ onPort p n s act = act { s with ports := ps } := by
  unfold onPort
  split
  · exact ⟨s.ports, .inl rfl⟩
  · dsimp only
    split
    · exact ⟨_, .inl rfl⟩
    · exact ⟨_, .inr rfl⟩
    · exact ⟨_, .inr rfl⟩

theorem State.settleCancelled_chans (s : State) : s.settleCancelled.chans = s.chans := by
  obtain ⟨_, _, h⟩ := s.settleCancelled_eq
  rw [h]

theorem putOn_chan_ne (s : State) {c d : ChanId} (index : Nat) (e : Entry) (h : d ≠ c) :
    (s.putOn c index e).chan d = s.chan d := by
  unfold State.putOn
  dsimp only
  split
  · exact State.setChan_chan_ne s _ h
  · obtain ⟨_, _, _, _, _, _, _, _, hr⟩ := State.releaseSegment_eq (State.bindSegment (s.setChan c _) e.seg) _
    rw [hr]
    exact State.setChan_chan_ne s _ h

theorem trimOn_chan_ne (s : State) {c d : ChanId} (m : Nat) (h : d ≠ c) : (s.trimOn c m).1.chan d = s.chan d := by
  unfold State.trimOn
  obtain ⟨_, _, _, _, _, _, _, _, hr⟩ := State.releaseAll_eq (s.setChan c _) _
  rw [hr]
  exact State.setChan_chan_ne s _ h

/-- PUT-ENTRY is taken only on a channel that is not active (R48 check 4). -/
theorem putCheck_inactive {s : State} {p : Port} {c : ChanId} {n : Nat} {a : EntryArg} {e : Entry}
    (h : s.putCheck p c n a = .ok e) : (s.chan c).state.active = false := by
  unfold State.putCheck at h
  dsimp only at h
  split at h
  · cases h
  · split at h
    · cases h
    · exact Bool.eq_false_iff.2 ‹¬(s.chan c).state.active = true›

/-- TRIM-LIST is taken only on a channel that is not active (R52). -/
theorem trimCheck_inactive {s : State} {c : ChanId} {m : Nat} (h : s.trimCheck c m = none) :
    (s.chan c).state.active = false := by
  unfold State.trimCheck at h
  split at h
  · cases h
  · exact Bool.eq_false_iff.2 ‹¬(s.chan c).state.active = true›

theorem ne_of_active {s : State} {c d : ChanId} (hd : (s.chan d).state.active = true)
    (hc : (s.chan c).state.active = false) : d ≠ c := by
  rintro rfl
  exact absurd (hd.symm.trans hc) (by decide)

/-- The two list commands leave the list of an active channel alone. -/
theorem putEntry_active {s t : State} {p : Port} {ch x : Byte} {a : EntryArg}
    (h : exec (.putEntry p ch x a) s = .next t)
    {d : ChanId} (hd : (s.chan d).state.active = true) : (t.chan d).list = (s.chan d).list := by
  cases h
  obtain ⟨ps, h | h⟩ := onPort_cases p (frameLength (.putEntry p ch x a)) s _ <;> rw [h]
  · rfl
  · dsimp only
    split
    · rfl
    · split
      · rfl
      · rename_i c _ _ e hc
        have hk := putOn_chan_ne { s with ports := ps } x.toNat e (ne_of_active hd (putCheck_inactive hc))
        unfold State.chan
        rw [State.settleCancelled_chans]
        exact congrArg Chan.list hk

theorem trimList_active {s t : State} {p : Port} {ch m : Byte} (h : exec (.trimList p ch m) s = .next t)
    {d : ChanId} (hd : (s.chan d).state.active = true) : (t.chan d).list = (s.chan d).list := by
  cases h
  obtain ⟨ps, h | h⟩ := onPort_cases p (frameLength (.trimList p ch m)) s _ <;> rw [h]
  · rfl
  · dsimp only
    split
    · rfl
    · split
      · rfl
      · rename_i c _ _ hc
        have hk := trimOn_chan_ne { s with ports := ps } m.toNat (ne_of_active hd (trimCheck_inactive hc))
        unfold State.chan
        rw [State.settleCancelled_chans]
        exact congrArg Chan.list hk

/-- Settles O51: `exec_sameBut` under the aspect of each clause; the two list commands check that the channel is not
active. -/
theorem whatChangesWhat : Obligations.WhatChangesWhat := by
  refine ⟨fun s t i h hd hr hf hb a => ?_, fun s t i h hr => ⟨fun hp ht => ?_, fun c hc => ?_, fun hs => ?_,
    fun h1 h2 h3 h4 c => ?_, fun hm => ?_, fun hl => ?_, fun h1 h2 h3 => ?_⟩⟩
  · have hn : .slots ∉ touches i := fun hx => by
      rcases (mem_touches_slots i).1 hx with e | e | ⟨us, e⟩ | ⟨us, e⟩
      exacts [hd e, hr e, hf us e, hb us e]
    obtain ⟨hm, he⟩ := exec_sameBut h _ hn
    exact State.slot_congr hm he a
  · refine exec_sameBut h .lists fun hx => ?_
    rcases (mem_touches_lists i).1 hx with e | ⟨p, ch, x, a, e⟩ | ⟨p, ch, m, e⟩
    exacts [hr e, hp _ _ _ _ e, ht _ _ _ e]
  · by_cases hx : .lists ∈ touches i
    · rcases (mem_touches_lists i).1 hx with e | ⟨p, ch, x, a, rfl⟩ | ⟨p, ch, m, rfl⟩
      exacts [absurd e hr, putEntry_active h hc, trimList_active h hc]
    · exact exec_sameBut h .lists hx c
  · refine exec_sameBut h .statics fun hx => ?_
    rcases (mem_touches_statics i).1 hx with e | ⟨p, ch, a, e⟩
    exacts [hr e, hs _ _ _ e]
  · have hk : t.claims = s.claims := exec_sameBut h .claims fun hx => by
      rcases (mem_touches_claims i).1 hx with e | ⟨p, m, y, k, e⟩ | ⟨p, m, e⟩ | ⟨p, e⟩ | ⟨p, e⟩
      exacts [hr e, h1 _ _ _ _ e, h2 _ _ e, h3 _ e, h4 _ e]
    exact congrArg (fun v : Vector Claim 8 => v.get c) hk
  · refine exec_sameBut h .modes fun hx => ?_
    rcases (mem_touches_modes i).1 hx with e | ⟨p, x, m, e⟩
    exacts [hr e, hm _ _ _ e]
  · refine exec_sameBut h .drivers fun hx => ?_
    rcases (mem_touches_drivers i).1 hx with e | ⟨p, l, d, e⟩
    exacts [hr e, hl _ _ _ e]
  · refine exec_sameBut h .enables fun hx => ?_
    rcases (mem_touches_enables i).1 hx with e | ⟨p, k, e⟩ | ⟨p, e⟩ | ⟨p, e⟩
    exacts [hr e, h1 _ _ e, h2 _ e, h3 _ e]

/-! ## The memory law -/

/-- The slots of a burst that keeps within its page are slots of a page (R11). -/
theorem Burst.slots_lt {b : Burst} (h : b.inPage) {k : Nat} (hk : k ∈ b.slots) : k < 256 := by
  unfold Burst.slots at hk
  obtain ⟨j, hj, rfl⟩ := List.mem_map.1 hk
  have hj := List.mem_range.1 hj
  unfold Burst.inPage at h
  split at h <;> split
  all_goals first | omega | contradiction

/-- What a command can make of the slots: nothing, disturbances, a write burst, or the device reset. -/
theorem exec_mem {i : Instr} {s t : State} (h : exec i s = .next t) :
    t.mem = s.mem ∨ (∃ us : List Upset, t.mem = us.foldl Memory.upset s.mem)
      ∨ (∃ b ∈ s.burst, t.mem = writeSlots b.page s.mem b.slots b.values) ∨ t.mem = [] := by
  by_cases hx : .slots ∈ touches i
  · rcases (mem_touches_slots i).1 hx with rfl | rfl | ⟨us, rfl⟩ | ⟨us, rfl⟩
    · cases h
      cases hb : s.burst with
      | none => exact .inl rfl
      | some b =>
        dsimp only
        split
        · rename_i p _ _
          refine .inr (.inr (.inl ⟨b, rfl, ?_⟩))
          have he : ∀ u : State, (u.endLoad p).mem = u.mem := fun u => (endLoad_same u p .slots (by decide)).1
          unfold State.drainDone
          dsimp only
          rw [State.arbitrate_mem]
          split
          · exact he _
          · rfl
        · exact .inl rfl
    · cases h
      exact .inr (.inr (.inr rfl))
    · cases h
      split
      · split
        · exact .inr (.inl ⟨us, (fetchDone_same (s.disturb us) _ _ .slots (by decide)).1⟩)
        · exact .inl rfl
      · exact .inl rfl
    · cases h
      split
      · split
        · exact .inr (.inl ⟨us, (readDone_same (s.disturb us) _ _ .slots (by decide)).1⟩)
        · exact .inl rfl
      · exact .inl rfl
  · exact .inl (exec_sameBut h _ hx).1

theorem Memory.foldl_upset_addresses (us : List Upset) (m : Memory) {y : Nat × Slot}
    (h : y ∈ us.foldl Memory.upset m) : ∃ z ∈ m, z.1 = y.1 := by
  induction us generalizing m with
  | nil => exact ⟨y, h, rfl⟩
  | cons u r ih =>
    obtain ⟨z, hz, e⟩ := ih _ h
    obtain ⟨x, hx, e'⟩ := Memory.upset_addresses m u hz
    exact ⟨x, hx, e'.trans e⟩

theorem exec_memoryLaw {i : Instr} {s t : State} (hs : s.MemoryLaw) (h : exec i s = .next t) : t.MemoryLaw := by
  obtain ⟨hw, ha, hb⟩ := hs
  have hb' : ∀ b ∈ t.burst, b.inPage := exec_sameBut h .burst (burst_not_touched i) hb
  rcases exec_mem h with e | ⟨us, e⟩ | ⟨b, hm, e⟩ | e <;> refine ⟨e ▸ ?_, e ▸ ?_, hb'⟩
  · exact hw
  · exact ha
  · exact Memory.wf_foldl_upset us _ hw
  · intro x hx
    obtain ⟨z, hz, e⟩ := Memory.foldl_upset_addresses us _ hx
    exact e ▸ ha z hz
  · exact wf_writeSlots _ _ _ _ hw
  · intro x hx
    rcases Memory.mem_writeSlots _ _ _ _ hx with hx | ⟨k, hk, e⟩
    · exact ha x hx
    · have hk := Burst.slots_lt (hb b hm) hk
      have hp := b.page.isLt
      rw [e, slotAddr]
      omega
  · rfl
  · exact fun x hx => by cases hx

/-- Settles O53: a period of REFCLK keeps the slots and the bound on the burst, and so does every command but those of
`exec_mem`, whose slots are checked one by one. -/
theorem memoryLawKept : Obligations.MemoryLawKept := by
  intro s t hs h
  cases hp : s.pending with
  | nil =>
    cases (step_nil s hp).symm.trans h
    obtain ⟨hw, ha, hb⟩ := hs
    have hr := refclkPeriod_same s
    have hm : s.refclkPeriod.mem = s.mem := (hr .slots List.not_mem_nil).1
    exact ⟨hm ▸ hw, hm ▸ ha, hr .burst List.not_mem_nil hb⟩
  | cons c q => exact exec_memoryLaw (s := { s with pending := q }) hs ((step_cons s c q hp).symm.trans h)

end Sys2Proof.Machine
end

section
/-! ## Pages given out and taken back (R6, R7) -/

namespace Sys2Proof.Machine

theorem State.givePage_page (s : State) (n m : PageNo) :
    (s.givePage n).page m =
      if m = n then (if (s.page n).suspect then ⟨.retired, true⟩ else ⟨.free, false⟩) else s.page m := by
  rw [State.givePage_eq]
  split
  case isTrue h =>
    refine (get_set_vector s.pages n m _).trans ?_
    rw [h]
    rfl
  case isFalse h =>
    refine (get_set_vector s.pages n m _).trans ?_
    rw [Bool.eq_false_iff.2 h]
    rfl

theorem State.givePage_freeList (s : State) (n : PageNo) :
    (s.givePage n).freeList = s.freeList ++ [n].filter fun m => !(s.page m).suspect := by
  rw [State.givePage_eq]
  split <;> simp [*]

theorem State.givePage_retired (s : State) (n : PageNo) :
    (s.givePage n).retired = s.retired ++ [n].filter fun m => (s.page m).suspect := by
  rw [State.givePage_eq]
  split <;> simp [*]

theorem State.givePages_cons (s : State) (n : PageNo) (l : List PageNo) :
    s.givePages (n :: l) = (s.givePage n).givePages l := rfl

/-- Pages given back join the tails of the two lists, each by its suspect flag, and take the record of their place. -/
theorem givePages_rule (s : State) (l : List PageNo) : PagesBackRule s (s.givePages l) l := by
  refine ⟨?_, ?_, fun m => ?_, ?_⟩
  · induction l generalizing s with
    | nil => exact (List.append_nil _).symm
    | cons n r ih =>
      rw [State.givePages_cons, ih, State.givePage_freeList, List.append_assoc]
      simp only [State.givePage_suspect, ← List.filter_append, List.singleton_append]
  · induction l generalizing s with
    | nil => exact (List.append_nil _).symm
    | cons n r ih =>
      rw [State.givePages_cons, ih, State.givePage_retired, List.append_assoc]
      simp only [State.givePage_suspect, ← List.filter_append, List.singleton_append]
  · induction l generalizing s with
    | nil => exact (if_neg List.not_mem_nil).symm
    | cons n r ih =>
      rw [State.givePages_cons, ih, State.givePage_suspect, State.givePage_page]
      by_cases h : m = n
      · subst h
        simp
      · simp [h]
  · obtain ⟨_, _, _, h⟩ := s.givePages_eq l
    rw [h]

theorem State.markPage_page (s : State) (st : PageState) (n m : PageNo) :
    (s.markPage st n).page m = if m = n then { s.page m with state := st } else s.page m := by
  refine (State.setPage_page s n m _).trans ?_
  split
  case isTrue h => rw [h]
  case isFalse => rfl

/-- Pages given out are HELD, with their suspect flags as they were (R6). -/
theorem State.takePages_page (s : State) (n : Nat) (m : PageNo) :
    (s.takePages n).page m =
      if m ∈ s.freeList.take n then { s.page m with state := .held } else s.page m := by
  have h : ∀ (l : List PageNo) (t : State), (l.foldl (fun t x => t.markPage .held x) t).page m =
      if m ∈ l then { t.page m with state := .held } else t.page m := by
    intro l
    induction l with
    | nil => exact fun t => (if_neg List.not_mem_nil).symm
    | cons x r ih =>
      intro t
      rw [List.foldl_cons, ih, State.markPage_page]
      by_cases hx : m = x
      · simp [hx]
      · simp [hx]
  exact h _ _

/-! ## The page conservation law (R10) -/

/-- How often a page number stands in the three places together. -/
def State.places (s : State) (n : PageNo) : Nat := (s.freeList ++ s.retired ++ s.heldPages).count n

theorem State.places_eq (s : State) (n : PageNo) :
    s.places n = s.freeList.count n + s.retired.count n + s.heldPages.count n := by
  simp only [State.places, List.count_append]

/-- The law, with its first and fifth part said as one: every page number stands exactly once. -/
theorem pageLaw_iff (s : State) : s.PageLaw ↔
    (∀ n, s.places n = 1) ∧ (∀ n ∈ s.freeList, s.page n = ⟨.free, false⟩)
      ∧ (∀ n ∈ s.retired, s.page n = ⟨.retired, true⟩) ∧ (∀ n ∈ s.heldPages, (s.page n).state = .held)
      ∧ ∀ i, (s.seg i).state = .free → (s.seg i).pages = [] := by
  constructor
  · rintro ⟨h1, h2, h3, h4, h5, h6⟩
    exact ⟨fun n => List.nodup_iff_count_eq_one.1 h1 n (h5 n), h2, h3, h4, h6⟩
  · rintro ⟨h1, h2, h3, h4, h6⟩
    exact ⟨List.nodup_iff_count_eq_one.2 fun n _ => h1 n, h2, h3, h4,
      fun n => List.count_pos_iff.1 (Nat.lt_of_lt_of_eq Nat.one_pos (h1 n).symm), h6⟩

theorem sum_map_set {α : Type} (f : α → Nat) (l : List α) (i : Nat) (x : α) (h : i < l.length) :
    ((l.set i x).map f).sum + f l[i] = (l.map f).sum + f x := by
  induction l generalizing i with
  | nil => exact absurd h (Nat.not_lt_zero i)
  | cons y r ih =>
    cases i with
    | zero =>
      simp only [List.set_cons_zero, List.map_cons, List.sum_cons, List.getElem_cons_zero]
      omega
    | succ i =>
      have hi := ih i (Nat.lt_of_succ_lt_succ h)
      simp only [List.set_cons_succ, List.map_cons, List.sum_cons, List.getElem_cons_succ]
      omega

/-- A segment record replaced: its own pages leave the held ones and the new record's join them. -/
theorem heldPages_setSeg (s : State) (i : SegId) (r : SegRec) (n : PageNo) :
    (s.setSeg i r).heldPages.count n + (s.seg i).pages.count n = s.heldPages.count n + r.pages.count n := by
  have h := sum_map_set (fun r : SegRec => r.pages.count n) s.segs.toList i.val r (by simp)
  simp only [State.heldPages, State.setSeg, List.count_flatMap, State.seg, Vector.toList_set]
  exact h

theorem mem_heldPages {s : State} {n : PageNo} : n ∈ s.heldPages ↔ ∃ i, n ∈ (s.seg i).pages := by
  simp only [State.heldPages, List.mem_flatMap, Vector.mem_toList_iff, Vector.mem_iff_getElem]
  constructor
  · rintro ⟨r, ⟨i, hi, rfl⟩, hn⟩
    exact ⟨⟨i, hi⟩, hn⟩
  · rintro ⟨i, hn⟩
    exact ⟨_, ⟨i.val, i.isLt, rfl⟩, hn⟩

theorem heldPages_congr {s t : State} (h : ∀ i, (t.seg i).pages = (s.seg i).pages) : t.heldPages = s.heldPages := by
  have hm : t.segs.toList.map SegRec.pages = s.segs.toList.map SegRec.pages := by
    refine List.ext_getElem (by simp) fun k h1 h2 => ?_
    have hk : k < 256 := by simpa using h1
    simpa [State.seg, Vector.get_eq_getElem] using h ⟨k, hk⟩
  simp only [State.heldPages, List.flatMap_def]
  exact congrArg List.flatten hm

/-- A command that leaves the pages alone keeps the law. -/
theorem SameBut.pageLaw {l : List Aspect} {s t : State} (h : SameBut l s t) (hl : .pages ∉ l) (hs : s.PageLaw) :
    t.PageLaw := by
  obtain ⟨hp, hf, hr, hg⟩ := h .pages hl
  have hh := heldPages_congr fun i => (hg i).1
  have hpage : ∀ n, t.page n = s.page n := fun n => congrArg (fun v : Vector PageRec 2048 => v.get n) hp
  obtain ⟨h1, h2, h3, h4, h5, h6⟩ := hs
  simp only [State.PageLaw, hf, hr, hh, hpage]
  exact ⟨h1, h2, h3, h4, h5, fun i hi => (hg i).1.trans (h6 i ((hg i).2 hi))⟩

/-! ### Pages that move -/

/-- Pages of segment i given back, the rest of them kept by its new record. -/
theorem pageLaw_givePages {s t : State} {i : SegId} {r : SegRec} {l : List PageNo} (hs : s.PageLaw)
    (hl : (s.seg i).pages = r.pages ++ l) (hf : r.state = .free → r.pages = [])
    (ht : t.segs = (s.setSeg i r).segs) (hfree : t.freeList = s.freeList ++ l.filter fun n => !(s.page n).suspect)
    (hret : t.retired = s.retired ++ l.filter fun n => (s.page n).suspect)
    (hpage : ∀ n, t.page n =
      if n ∈ l then (if (s.page n).suspect then ⟨.retired, true⟩ else ⟨.free, false⟩) else s.page n) : t.PageLaw := by
  obtain ⟨h1, h2, h3, h4, h5⟩ := (pageLaw_iff s).1 hs
  have hseg : ∀ j, t.seg j = (s.setSeg i r).seg j := fun j => congrArg (fun v : Vector SegRec 256 => v.get j) ht
  have hheld : t.heldPages = (s.setSeg i r).heldPages := congrArg (fun v : Vector SegRec 256 => v.toList.flatMap _) ht
  have hcount : ∀ n, t.heldPages.count n + l.count n = s.heldPages.count n := fun n => by
    have h := heldPages_setSeg s i r n
    rw [hl, List.count_append] at h
    rw [hheld]
    omega
  have hsplit : ∀ n, (l.filter fun m => (s.page m).suspect).count n
      + (l.filter fun m => !(s.page m).suspect).count n = l.count n := fun n => by
    rw [← List.count_append]
    exact (List.filter_append_perm _ l).count_eq n
  have hone : ∀ n, s.freeList.count n + s.retired.count n + s.heldPages.count n = 1 := fun n =>
    (s.places_eq n).symm.trans (h1 n)
  have hstay : ∀ n, s.heldPages.count n = 0 ∨ 0 < t.heldPages.count n → t.page n = s.page n := fun n hn => by
    have hz : n ∉ l := fun hx => by
      have := List.count_pos_iff.2 hx
      have := hcount n
      have := hone n
      omega
    exact (hpage n).trans (if_neg hz)
  refine (pageLaw_iff t).2 ⟨fun n => ?_, fun n hn => ?_, fun n hn => ?_, fun n hn => ?_, fun j hj => ?_⟩
  · rw [State.places_eq, hfree, hret, List.count_append, List.count_append]
    have := hcount n
    have := hsplit n
    have := hone n
    omega
  · rw [hfree] at hn
    rcases List.mem_append.1 hn with hn | hn
    · have := List.count_pos_iff.2 hn
      have := hone n
      rw [hstay n (.inl (by omega))]
      exact h2 n hn
    · obtain ⟨hm, hu⟩ := List.mem_filter.1 hn
      refine (hpage n).trans ?_
      rw [if_pos hm, if_neg (by simpa using hu)]
  · rw [hret] at hn
    rcases List.mem_append.1 hn with hn | hn
    · have := List.count_pos_iff.2 hn
      have := hone n
      rw [hstay n (.inl (by omega))]
      exact h3 n hn
    · obtain ⟨hm, hu⟩ := List.mem_filter.1 hn
      refine (hpage n).trans ?_
      rw [if_pos hm, if_pos hu]
  · have hp := List.count_pos_iff.2 hn
    have := hcount n
    rw [hstay n (.inr hp)]
    exact h4 n (List.count_pos_iff.1 (by omega))
  · rw [hseg j, State.setSeg_seg] at hj ⊢
    split at hj
    case isTrue e => rw [if_pos e, hf hj]
    case isFalse e => rw [if_neg e, h5 j hj]

/-- Pages of the free list given out to a segment that had none (R6, R22). -/
theorem pageLaw_takePages {s t : State} {i : SegId} {r : SegRec} {k : Nat} (hs : s.PageLaw)
    (hi : (s.seg i).pages = []) (hr : r.pages = s.freeList.take k) (hf : r.state ≠ .free)
    (ht : t.segs = (s.setSeg i r).segs) (hfree : t.freeList = s.freeList.drop k) (hret : t.retired = s.retired)
    (hpages : t.pages = (s.takePages k).pages) : t.PageLaw := by
  obtain ⟨h1, h2, h3, h4, h5⟩ := (pageLaw_iff s).1 hs
  have hseg : ∀ j, t.seg j = (s.setSeg i r).seg j := fun j => congrArg (fun v : Vector SegRec 256 => v.get j) ht
  have hheld : t.heldPages = (s.setSeg i r).heldPages := congrArg (fun v : Vector SegRec 256 => v.toList.flatMap _) ht
  have hpage : ∀ n, t.page n = if n ∈ s.freeList.take k then { s.page n with state := .held } else s.page n := fun n =>
    (congrArg (fun v : Vector PageRec 2048 => v.get n) hpages).trans (s.takePages_page k n)
  have hcount : ∀ n, t.heldPages.count n = s.heldPages.count n + (s.freeList.take k).count n := fun n => by
    have h := heldPages_setSeg s i r n
    rw [hi, hr, List.count_nil] at h
    rw [hheld]
    omega
  have hsplit : ∀ n, (s.freeList.take k).count n + (s.freeList.drop k).count n = s.freeList.count n := fun n => by
    rw [← List.count_append, List.take_append_drop]
  have hone : ∀ n, s.freeList.count n + s.retired.count n + s.heldPages.count n = 1 := fun n =>
    (s.places_eq n).symm.trans (h1 n)
  have hstay : ∀ n, (s.freeList.take k).count n = 0 → t.page n = s.page n := fun n hn =>
    (hpage n).trans (if_neg (List.count_eq_zero.1 hn))
  refine (pageLaw_iff t).2 ⟨fun n => ?_, fun n hn => ?_, fun n hn => ?_, fun n hn => ?_, fun j hj => ?_⟩
  · rw [State.places_eq, hfree, hret]
    have := hcount n
    have := hsplit n
    have := hone n
    omega
  · rw [hfree] at hn
    have := List.count_pos_iff.2 hn
    have := hsplit n
    have := hone n
    rw [hstay n (by omega)]
    exact h2 n (List.mem_of_mem_drop hn)
  · rw [hret] at hn
    have := List.count_pos_iff.2 hn
    have := hsplit n
    have := hone n
    rw [hstay n (by omega)]
    exact h3 n hn
  · by_cases hm : n ∈ s.freeList.take k
    · rw [hpage, if_pos hm]
    · have := List.count_pos_iff.2 hn
      have hz := List.count_eq_zero.2 hm
      have := hcount n
      rw [hstay n hz]
      exact h4 n (List.count_pos_iff.1 (by omega))
  · rw [hseg j, State.setSeg_seg] at hj ⊢
    split at hj
    case isTrue e => exact absurd hj hf
    case isFalse e => rw [if_neg e, h5 j hj]

/-- A page found suspect by a read (R8): a FREE one is RETIRED. -/
theorem State.suspectPage_page (s : State) (n m : PageNo) :
    (s.suspectPage n).page m =
      if m = n then (if (s.page n).state = .free then ⟨.retired, true⟩ else { s.page n with suspect := true })
      else s.page m := by
  have hset : ∀ r, (s.setPage n r).page m = if m = n then r else s.page m := fun r => s.setPage_page n m r
  unfold State.suspectPage
  dsimp only
  split
  · refine (State.markPage_page _ _ _ _).trans ?_
    change (if m = n then { (s.setPage n { s.page n with suspect := true }).page m with state := .retired }
      else (s.setPage n { s.page n with suspect := true }).page m) = _
    rw [hset]
    split <;> rfl
  · rw [hset]

theorem State.suspectPage_lists (s : State) (n : PageNo) :
    (s.suspectPage n).freeList = (if (s.page n).state = .free then s.freeList.erase n else s.freeList)
      ∧ (s.suspectPage n).retired = if (s.page n).state = .free then s.retired ++ [n] else s.retired := by
  unfold State.suspectPage
  dsimp only
  split <;> exact ⟨rfl, rfl⟩

/-- What the store does at the end of a read burst (R13, R8, R9). -/
theorem endRead_rule (s : State) (b : Burst) : ReadEndRule s (s.endRead b) b ((s.readSlots b).any Slot.bad) := by
  have hrest : (s.endRead b).burst = none ∧ { s.endRead b with
      burst := s.burst, pages := s.pages, freeList := s.freeList, retired := s.retired } = s := by
    obtain ⟨_, _, _, h⟩ := s.endRead_eq b
    rw [h]
    exact ⟨rfl, rfl⟩
  refine ⟨hrest.1, hrest.2, ?_⟩
  unfold State.endRead
  dsimp only
  cases (s.readSlots b).any Slot.bad
  · exact ⟨fun _ _ => rfl, rfl, rfl, rfl⟩
  · obtain ⟨hf, hr⟩ := State.suspectPage_lists { s with burst := none } b.page
    have hp := State.suspectPage_page { s with burst := none } b.page
    refine ⟨fun n hn => (hp n).trans (if_neg hn), ?_⟩
    have hb := (hp b.page).trans (if_pos rfl)
    change _ = (if (s.page b.page).state = .free then _ else _) at hb hf hr
    rw [if_neg (by decide)]
    split
    case isTrue e =>
      rw [if_pos e] at hb hf hr
      exact ⟨hb, hf, hr⟩
    case isFalse e =>
      rw [if_neg e] at hb hf hr
      exact ⟨hb, hf, hr⟩

/-- The law speaks of page records, the two lists and the segments' page lists: a page that is not FREE may become
suspect. -/
theorem pageLaw_of_suspect {s t : State} (hs : s.PageLaw) (hsegs : t.segs = s.segs) (hf : t.freeList = s.freeList)
    (hr : t.retired = s.retired)
    (hp : ∀ n, t.page n = s.page n ∨ (s.page n).state ≠ .free ∧ t.page n = { s.page n with suspect := true }) :
    t.PageLaw := by
  have hheld : t.heldPages = s.heldPages := congrArg (fun v : Vector SegRec 256 => v.toList.flatMap _) hsegs
  have hseg : ∀ i, t.seg i = s.seg i := fun i => congrArg (fun v : Vector SegRec 256 => v.get i) hsegs
  obtain ⟨h1, h2, h3, h4, h5, h6⟩ := hs
  simp only [State.PageLaw, hf, hr, hheld, hseg]
  refine ⟨h1, fun n hn => ?_, fun n hn => ?_, fun n hn => ?_, h5, h6⟩
  · rcases hp n with e | ⟨hx, -⟩
    · exact e.trans (h2 n hn)
    · exact absurd (congrArg PageRec.state (h2 n hn)) hx
  · rcases hp n with e | ⟨-, e⟩
    · exact e.trans (h3 n hn)
    · rw [e, h3 n hn]
  · rcases hp n with e | ⟨-, e⟩ <;> rw [e] <;> exact h4 n hn

/-- A FREE page stands in the free list and nowhere else. -/
theorem PageLaw.of_free {s : State} (hs : s.PageLaw) {n : PageNo} (hn : (s.page n).state = .free) :
    s.freeList.count n = 1 ∧ n ∉ s.retired ∧ n ∉ s.heldPages := by
  obtain ⟨h1, -, h3, h4, -⟩ := (pageLaw_iff s).1 hs
  have hret : n ∉ s.retired := fun hx => by
    rw [h3 n hx] at hn
    cases hn
  have hheld : n ∉ s.heldPages := fun hx => by
    rw [h4 n hx] at hn
    cases hn
  have := (s.places_eq n).symm.trans (h1 n)
  rw [List.count_eq_zero.2 hret, List.count_eq_zero.2 hheld] at this
  exact ⟨this, hret, hheld⟩

/-- A FREE page retired (R8, R9). -/
theorem pageLaw_of_retire {s t : State} {p : PageNo} (hs : s.PageLaw) (hsegs : t.segs = s.segs)
    (hfree : (s.page p).state = .free) (hf : t.freeList = s.freeList.erase p) (hr : t.retired = s.retired ++ [p])
    (hp : t.page p = ⟨.retired, true⟩) (hother : ∀ n, n ≠ p → t.page n = s.page n) : t.PageLaw := by
  have hheld : t.heldPages = s.heldPages := congrArg (fun v : Vector SegRec 256 => v.toList.flatMap _) hsegs
  have hseg : ∀ i, t.seg i = s.seg i := fun i => congrArg (fun v : Vector SegRec 256 => v.get i) hsegs
  obtain ⟨hone, -, hnot⟩ := PageLaw.of_free hs hfree
  obtain ⟨h1, h2, h3, h4, h5⟩ := (pageLaw_iff s).1 hs
  have hcount : ∀ n, (s.freeList.erase p).count n + [p].count n = s.freeList.count n := fun n => by
    have hperm := (List.perm_cons_erase (List.count_pos_iff.1 (hone ▸ Nat.one_pos))).count_eq n
    exact (Nat.add_comm _ _).trans (hperm.trans (List.count_append (l₁ := [p]))).symm
  refine (pageLaw_iff t).2 ⟨fun n => ?_, fun n hn => ?_, fun n hn => ?_, fun n hn => ?_, fun i => hseg i ▸ h5 i⟩
  · rw [State.places_eq, hf, hr, hheld, List.count_append]
    have := (s.places_eq n).symm.trans (h1 n)
    have := hcount n
    omega
  · rw [hf] at hn
    have hne : n ≠ p := by
      rintro rfl
      have := List.count_pos_iff.2 hn
      have := hcount n
      rw [List.count_singleton_self] at this
      omega
    exact (hother n hne).trans (h2 n (List.mem_of_mem_erase hn))
  · rw [hr] at hn
    by_cases e : n = p
    · exact e ▸ hp
    · rcases List.mem_append.1 hn with hn | hn
      · exact (hother n e).trans (h3 n hn)
      · exact absurd (List.mem_singleton.1 hn) e
  · rw [hheld] at hn
    rw [hother n fun e => hnot (e ▸ hn)]
    exact h4 n hn

/-- The end of a read burst keeps the law. -/
theorem readEnd_pageLaw {s t : State} {b : Burst} {bad : Bool} (h : ReadEndRule s t b bad) (hs : s.PageLaw) :
    t.PageLaw := by
  obtain ⟨-, hrest, hother, hpage⟩ := h
  have hsegs : t.segs = s.segs := (congrArg State.segs hrest :)
  have hrec : ∀ n, t.page n = s.page n ∨ n = b.page := fun n => (em (n = b.page)).elim .inr (.inl ∘ hother n)
  split at hpage
  · obtain ⟨hb, hf, hr⟩ := hpage
    refine pageLaw_of_suspect hs hsegs hf hr fun n => .inl ((hrec n).elim id ?_)
    rintro rfl
    exact hb
  · split at hpage
    case isTrue hfree =>
      obtain ⟨hb, hf, hr⟩ := hpage
      exact pageLaw_of_retire hs hsegs hfree hf hr hb hother
    case isFalse hfree =>
      obtain ⟨hb, hf, hr⟩ := hpage
      refine pageLaw_of_suspect hs hsegs hf hr fun n => (hrec n).imp_right ?_
      rintro rfl
      exact ⟨hfree, hb⟩

/-! ### The operations that move pages -/

theorem freeSegment_pageLaw {s : State} (i : SegId) (hs : s.PageLaw) : (s.freeSegment i).PageLaw := by
  obtain ⟨hf, hr, hp, hrest⟩ := givePages_rule s (s.seg i).pages
  have hsegs : (s.givePages (s.seg i).pages).segs = s.segs := (congrArg State.segs hrest :)
  have h : ((s.givePages (s.seg i).pages).setSeg i .freed).PageLaw :=
    pageLaw_givePages (r := .freed) hs rfl (fun _ => rfl) (by simp only [State.setSeg, hsegs]) hf hr hp
  exact (cancelReadback_same _ i .b).pageLaw List.not_mem_nil ((cancelReadback_same _ i .a).pageLaw List.not_mem_nil h)

theorem releaseSegment_pageLaw {s : State} (i : SegId) (hs : s.PageLaw) : (s.releaseSegment i).PageLaw := by
  unfold State.releaseSegment
  dsimp only
  split
  · refine freeSegment_pageLaw i ?_
    unfold State.raiseFreed
    split
    · exact (raiseTo_same s _ _ _ _).pageLaw List.not_mem_nil hs
    · exact hs
  · exact SameBut.pageLaw (by exact setSeg_same s i _ rfl id) List.not_mem_nil hs

theorem releaseAll_pageLaw {s : State} (l : List Entry) (hs : s.PageLaw) : (s.releaseAll l).1.PageLaw := by
  induction l generalizing s with
  | nil => exact hs
  | cons e r ih => exact ih (releaseSegment_pageLaw e.seg hs)

theorem endLoad_pageLaw {s : State} (p : Port) (hs : s.PageLaw) : (s.endLoad p).PageLaw := by
  refine (setLoad_same _ p _).pageLaw List.not_mem_nil ?_
  split
  · exact freeSegment_pageLaw _ hs
  · exact hs

theorem abortOpen_pageLaw {s : State} (p : Port) (hs : s.PageLaw) : (s.abortOpen p).PageLaw := by
  have h : State.PageLaw (if s.drainRequest p then s.setPassOver p 0 else s) := by
    split
    · exact (setPassOver_same s p 0).pageLaw List.not_mem_nil hs
    · exact hs
  unfold State.abortOpen
  dsimp only
  split
  · exact endLoad_pageLaw p h
  · exact (setLoad_same _ p _).pageLaw List.not_mem_nil h

theorem resetLoad_pageLaw {s : State} (p : Port) (hs : s.PageLaw) : (s.resetLoad p).PageLaw := by
  have h := ((dropReadBurst_same s p).trans (setLoad_same _ p
    { (s.dropReadBurst p).loadUnit p with readback := none })).pageLaw List.not_mem_nil hs
  unfold State.resetLoad
  dsimp only
  split
  · exact abortOpen_pageLaw p h
  · exact h

theorem resetOnePort_pageLaw {s : State} (p : Port) (hs : s.PageLaw) : (s.resetOnePort p).PageLaw := by
  refine (setPort_sameBut [.enables] _ p _ fun h => absurd List.mem_cons_self h).pageLaw (by decide) ?_
  refine (setPassOver_same _ p 0).pageLaw List.not_mem_nil ?_
  exact resetLoad_pageLaw p ((claims_same s _).pageLaw (by decide) hs)

theorem openOn_pageLaw {s : State} {p : Port} {i : SegId} {n : Nat} {vis : Byte} {v : Visibility} (label : Option Half)
    (hs : s.PageLaw) (h : s.openCheck p i n vis = .ok v) : (s.openOn p i n v label).PageLaw := by
  have hfree : (s.seg i).state = .free := by
    unfold State.openCheck at h
    split at h
    · cases h
    · split at h
      · cases h
      · exact not_not.1 ‹¬(s.seg i).state ≠ .free›
  obtain ⟨_, ht⟩ := s.takePages_eq (pagesFor n)
  have hi : (s.seg i).pages = [] := ((pageLaw_iff s).1 hs).2.2.2.2 i hfree
  refine pageLaw_takePages (k := pagesFor n)
    (r := ⟨.loading, some p, some v, some n, none, s.freeList.take (pagesFor n), 0, false, label⟩)
    hs hi rfl (fun h => by cases h) ?_ ?_ ?_ rfl <;> simp only [State.openOn, State.setLoad, State.setSeg, ht]

theorem closeOn_pageLaw {s : State} (p : Port) (i : SegId) (hs : s.PageLaw) : (s.closeOn p i).1.PageLaw := by
  have hready : ∀ r : SegRec, r.pages = (s.seg i).pages → r.state = .ready → (s.setSeg i r).PageLaw := fun r hp hr =>
    (setSeg_same s i r hp fun h => by rw [hr] at h; cases h).pageLaw List.not_mem_nil hs
  unfold State.closeOn
  dsimp only
  split
  · exact (setLoad_same _ p _).pageLaw List.not_mem_nil (hready _ rfl rfl)
  · split
    · exact (setLoad_same _ p _).pageLaw List.not_mem_nil (freeSegment_pageLaw i hs)
    · refine (setLoad_same _ p _).pageLaw List.not_mem_nil ?_
      generalize hk : pagesFor (s.loadUnit p).received = k
      generalize hr : ({ s.seg i with
        state := .ready, length := some (s.loadUnit p).received, pages := (s.seg i).pages.take k } : SegRec) = r
      obtain ⟨hf, hre, hp, hrest⟩ := givePages_rule (s.setSeg i r) ((s.seg i).pages.drop k)
      have hsegs := (congrArg State.segs hrest :)
      refine pageLaw_givePages (i := i) (r := r) (l := (s.seg i).pages.drop k) hs ?_ ?_ hsegs hf hre hp
      · rw [← hr, List.take_append_drop]
      · rw [← hr]
        exact fun h => by cases h

theorem deleteOn_pageLaw {s t : State} {p : Port} {i : SegId} (h : s.deleteOn p i = .ok t) (hs : s.PageLaw) :
    t.PageLaw := by
  unfold State.deleteOn at h
  dsimp only at h
  split at h
  · cases h
  · split at h <;> cases h
  · split at h <;> cases h
    exact hs
  · split at h
    · split at h <;> cases h
      · exact freeSegment_pageLaw i hs
      · exact SameBut.pageLaw (by exact setSeg_same s i _ rfl fun h => by cases h) List.not_mem_nil hs
    · cases h

theorem putOn_pageLaw {s : State} (c : ChanId) (index : Nat) (e : Entry) (hs : s.PageLaw) :
    (s.putOn c index e).PageLaw := by
  have h : ∀ l, ((s.setChan c { s.chan c with list := l }).bindSegment e.seg).PageLaw := fun l =>
    (bindSegment_same _ _).pageLaw List.not_mem_nil
      (SameBut.pageLaw (setChan_sameBut [.lists] s c _ (fun h => absurd List.mem_cons_self h) fun _ => rfl)
        (by decide) hs)
  unfold State.putOn
  dsimp only
  split
  · exact h _
  · exact releaseSegment_pageLaw _ (h _)

theorem trimOn_pageLaw {s : State} (c : ChanId) (m : Nat) (hs : s.PageLaw) : (s.trimOn c m).1.PageLaw :=
  releaseAll_pageLaw _ (SameBut.pageLaw
    (setChan_sameBut [.lists] s c _ (fun h => absurd List.mem_cons_self h) fun _ => rfl) (by decide) hs)

theorem endRead_pageLaw {s : State} (b : Burst) (hs : s.PageLaw) : (s.endRead b).PageLaw :=
  readEnd_pageLaw (endRead_rule s b) hs

theorem fetchDone_pageLaw {s : State} (c : ChanId) (b : Burst) (hs : s.PageLaw) : (s.fetchDone c b).PageLaw := by
  refine (arbitrate_same _).pageLaw List.not_mem_nil ((endPrefill_same _ c).pageLaw List.not_mem_nil ?_)
  split
  · exact (appendFetched_same _ c _ _).pageLaw List.not_mem_nil (endRead_pageLaw b hs)
  · exact endRead_pageLaw b hs

theorem drainDone_pageLaw {s : State} (p : Port) (b : Burst) (hs : s.PageLaw) : (s.drainDone p b).PageLaw := by
  refine (arbitrate_same _).pageLaw List.not_mem_nil ?_
  split
  · exact endLoad_pageLaw p hs
  · exact hs

theorem readDone_pageLaw {s : State} (p : Port) (b : Burst) (hs : s.PageLaw) : (s.readDone p b).PageLaw := by
  refine (arbitrate_same _).pageLaw List.not_mem_nil ?_
  split
  · exact (takeRead_same _ p _).pageLaw List.not_mem_nil (endRead_pageLaw b hs)
  · exact (dropRead_same _ p).pageLaw List.not_mem_nil (endRead_pageLaw b hs)

/-! ### The reset state -/

theorem get_replicate {α : Type} {n : Nat} (x : α) (i : Fin n) : (Vector.replicate n x).get i = x := by
  simp [Vector.get_eq_getElem]

@[simp] theorem State.reset_seg (i : SegId) : State.reset.seg i = .freed := get_replicate _ i

@[simp] theorem State.reset_page (n : PageNo) : State.reset.page n = ⟨.free, false⟩ := get_replicate _ n

@[simp] theorem State.reset_chan (c : ChanId) : State.reset.chan c = .reset := get_replicate _ c

@[simp] theorem State.reset_claimOf (c : ChanId) : State.reset.claimOf c = ⟨none, false⟩ := get_replicate _ c

@[simp] theorem State.reset_tickOf (c : ChanId) : State.reset.tickOf c = .noTick := get_replicate _ c

@[simp] theorem State.reset_port (p : Port) : State.reset.port p = .reset := by cases p <;> rfl

@[simp] theorem State.reset_loadUnit (p : Port) : State.reset.loadUnit p = .empty := by cases p <;> rfl

@[simp] theorem State.reset_freeList : State.reset.freeList = List.finRange 2048 := by rw [State.reset]

@[simp] theorem State.reset_heldPages : State.reset.heldPages = [] :=
  List.eq_nil_iff_forall_not_mem.2 fun n hn => by
    obtain ⟨i, hi⟩ := mem_heldPages.1 hn
    rw [State.reset_seg] at hi
    cases hi

/-- The law at a device reset: all pages are in the free list. -/
theorem reset_pageLaw : State.reset.PageLaw := by
  have hret : State.reset.retired = [] := rfl
  simp only [State.PageLaw, State.reset_freeList, hret, State.reset_heldPages, List.append_nil]
  exact ⟨List.nodup_finRange 2048, fun n _ => State.reset_page n, fun _ hn => absurd hn List.not_mem_nil,
    fun _ hn => absurd hn List.not_mem_nil, List.mem_finRange, fun i _ => congrArg SegRec.pages (State.reset_seg i)⟩

/-! ### The commands -/

/-- A step that ends in a response keeps the law if it does without. -/
theorem respond_pageLaw {s : State} (p : Port) (e : Byte) (st : Status) (pl : List Byte) (hs : s.PageLaw) :
    (s.respond p e st pl).PageLaw := hs

theorem onPort_pageLaw {p : Port} {n : Nat} {s : State} {act : State → State}
    (h : ∀ u, u.PageLaw → (act u).PageLaw) (hs : s.PageLaw) : (onPort p n s act).PageLaw := by
  obtain ⟨ps, e | e⟩ := onPort_cases p n s act <;> rw [e]
  · exact hs
  · exact h _ hs

theorem mem_touches_pages (i : Instr) : .pages ∈ touches i ↔
    (∃ p seg d v l, i = .openLoad p seg d v l) ∨ (∃ p, i = .closeLoad p) ∨ (∃ p, i = .abortLoad p)
      ∨ (∃ p seg, i = .deleteSegment p seg) ∨ (∃ p ch x e, i = .putEntry p ch x e) ∨ (∃ p ch m, i = .trimList p ch m)
      ∨ (∃ p, i = .resetPort p) ∨ (∃ p, i = .portReset p) ∨ (∃ us, i = .fetchBurstComplete us)
      ∨ i = .drainBurstComplete ∨ (∃ us, i = .readbackBurstComplete us) ∨ i = .deviceReset := by
  cases i <;> simp [touches]

theorem exec_pageLaw {i : Instr} {s t : State} (hs : s.PageLaw) (h : exec i s = .next t) : t.PageLaw := by
  by_cases hx : .pages ∈ touches i
  · rcases (mem_touches_pages i).1 hx with ⟨p, seg, d, v, l, rfl⟩ | ⟨p, rfl⟩ | ⟨p, rfl⟩ | ⟨p, seg, rfl⟩
      | ⟨p, ch, x, e, rfl⟩ | ⟨p, ch, m, rfl⟩ | ⟨p, rfl⟩ | ⟨p, rfl⟩ | ⟨us, rfl⟩ | rfl | ⟨us, rfl⟩ | rfl <;> cases h
    · refine onPort_pageLaw (fun u hu => ?_) hs
      split
      · exact hu
      · exact openOn_pageLaw l hu ‹_›
    · refine onPort_pageLaw (fun u hu => ?_) hs
      dsimp only
      split
      · exact hu
      · split
        · exact hu
        · split
          · exact hu
          · exact closeOn_pageLaw p _ hu
    · refine onPort_pageLaw (fun u hu => ?_) hs
      split
      · exact hu
      · exact hu
      · exact abortOpen_pageLaw p hu
    · refine onPort_pageLaw (fun u hu => ?_) hs
      split
      · exact hu
      · exact (settleCancelled_same _).pageLaw List.not_mem_nil (respond_pageLaw p _ _ _ (deleteOn_pageLaw ‹_› hu))
    · refine onPort_pageLaw (fun u hu => ?_) hs
      split
      · exact hu
      · split
        · exact hu
        · exact (settleCancelled_same _).pageLaw List.not_mem_nil (respond_pageLaw p _ _ _ (putOn_pageLaw _ _ _ hu))
    · refine onPort_pageLaw (fun u hu => ?_) hs
      split
      · exact hu
      · split
        · exact hu
        · exact (settleCancelled_same _).pageLaw List.not_mem_nil (respond_pageLaw p _ _ _ (trimOn_pageLaw _ _ hu))
    · exact onPort_pageLaw (fun u hu => resetOnePort_pageLaw p hu) hs
    · exact resetOnePort_pageLaw p hs
    · split
      · split
        · exact fetchDone_pageLaw (s := s.disturb us) _ _ hs
        · exact hs
      · exact hs
    · split
      · split
        · exact drainDone_pageLaw _ _ hs
        · exact hs
      · exact hs
    · split
      · split
        · exact readDone_pageLaw (s := s.disturb us) _ _ hs
        · exact hs
      · exact hs
    · exact pageLaw_of_suspect reset_pageLaw (by dsimp only) (by dsimp only) (by dsimp only) fun n => .inl rfl
  · exact (exec_sameBut h).pageLaw hx hs

/-- Settles O54: a period of REFCLK leaves the pages alone, and so does every command but those of `mem_touches_pages`,
each of which moves pages from one place to another. -/
theorem pageLawKept : Obligations.PageLawKept := by
  intro s t hs h
  cases hp : s.pending with
  | nil =>
    cases (step_nil s hp).symm.trans h
    exact (refclkPeriod_same s).pageLaw List.not_mem_nil hs
  | cons c q => exact exec_pageLaw (s := { s with pending := q }) hs ((step_cons s c q hp).symm.trans h)

end Sys2Proof.Machine
end

section
/-! ## Slots written, read and disturbed (R1, R2, R11 to R13) -/

namespace Sys2Proof.Machine

theorem countP_xor_mod_two {α : Type} (f g : α → Bool) (l : List α) :
    (l.countP fun x => f x ^^ g x) % 2 = (l.countP f + l.countP g) % 2 := by
  induction l with
  | nil => rfl
  | cons x r ih =>
    simp only [List.countP_cons]
    cases f x <;> cases g x <;> simp <;> omega

/-- Inverting bits changes the number of 1s by the number of bits inverted, up to an even number (R2). -/
theorem ones_xor (v w : Half) : ones (v ^^^ w) % 2 = (ones v + ones w) % 2 := by
  simp only [ones, BitVec.getLsbD_xor]
  exact countP_xor_mod_two _ _ _

theorem writtenSlot_even (v : Half) : (ones (writtenSlot v).value + (writtenSlot v).parity.toNat) % 2 = 0 := by
  simp only [writtenSlot, parityOf]
  rcases Nat.mod_two_eq_zero_or_one (ones v) with h | h <;> simp [h, Nat.add_mod]

theorem bad_flip (x m : Slot) :
    Slot.bad (x.flip m) = (Slot.bad x ^^ decide ((ones m.value + m.parity.toNat) % 2 = 1)) := by
  have h := ones_xor x.value m.value
  have hp : (x.parity ^^ m.parity).toNat % 2 = (x.parity.toNat + m.parity.toNat) % 2 := by
    cases x.parity <;> cases m.parity <;> rfl
  have hs : (ones (x.value ^^^ m.value) + (x.parity ^^ m.parity).toNat) % 2
      = ((ones x.value + x.parity.toNat) + (ones m.value + m.parity.toNat)) % 2 := by omega
  simp only [Slot.bad, Slot.flip, hs]
  rcases Nat.mod_two_eq_zero_or_one (ones x.value + x.parity.toNat) with h1 | h1 <;>
    rcases Nat.mod_two_eq_zero_or_one (ones m.value + m.parity.toNat) with h2 | h2 <;>
    simp [h1, h2, Nat.add_mod]

/-- A slot that a write burst does not name reads as before. -/
theorem find_writeSlots_ne (page : PageNo) (m : Memory) (slots : List Nat) (vs : List Sample) (a : Nat)
    (h : ∀ k ∈ slots, a ≠ slotAddr page k) : (writeSlots page m slots vs).find a = m.find a := by
  induction slots generalizing m vs with
  | nil => cases vs <;> rfl
  | cons k r ih =>
    cases vs with
    | nil => rfl
    | cons v vs =>
      exact (ih _ _ fun j hj => h j (List.mem_cons_of_mem _ hj)).trans
        (Memory.find_write_ne _ _ (h k List.mem_cons_self))

/-- The slots of a write burst, which are all different, take their values. -/
theorem find_writeSlots (page : PageNo) (m : Memory) (slots : List Nat) (vs : List Sample) (hn : slots.Nodup)
    {j k : Nat} {v : Sample} (hk : slots[j]? = some k) (hv : vs[j]? = some v) :
    (writeSlots page m slots vs).find (slotAddr page k) = some (writtenSlot v) := by
  induction slots generalizing m vs j with
  | nil => simp at hk
  | cons x r ih =>
    obtain ⟨hx, hr⟩ := List.nodup_cons.1 hn
    cases vs with
    | nil => simp at hv
    | cons y ys =>
      cases j with
      | zero =>
        obtain rfl : x = k := by simpa using hk
        obtain rfl : y = v := by simpa using hv
        refine (find_writeSlots_ne page _ r ys _ fun i hi e => hx ?_).trans (Memory.find_write_self _ _ _)
        obtain rfl : x = i := by simpa [slotAddr] using e
        exact hi
      | succ j => exact ih _ _ hr (by simpa using hk) (by simpa using hv)

theorem Burst.slots_ascending {b : Burst} (h : b.ascending = true) :
    b.slots = (List.range b.count).map fun j => b.first + j := by
  simp [Burst.slots, h]

theorem State.slot_eq (s : State) (a : Nat) : s.slot a = (s.mem.find a).getD (Config.unwrittenSlot s.resets a) := rfl

/-- A write burst in ascending order: every other slot reads as before, and its own read as written. -/
theorem slot_writeSlots (s : State) (b : Burst) (ha : b.ascending = true) :
    (∀ a, (∀ k, k < b.count → a ≠ slotAddr b.page (b.first + k)) →
        ({ s with mem := writeSlots b.page s.mem b.slots b.values }).slot a = s.slot a)
      ∧ ∀ j v, j < b.count → b.values[j]? = some v →
          ({ s with mem := writeSlots b.page s.mem b.slots b.values }).slot (slotAddr b.page (b.first + j))
            = writtenSlot v := by
  constructor
  · intro a h
    rw [State.slot_eq, State.slot_eq]
    refine congrArg (Option.getD · _) (find_writeSlots_ne _ _ _ _ a fun k hk => ?_)
    rw [Burst.slots_ascending ha] at hk
    obtain ⟨j, hj, rfl⟩ := List.mem_map.1 hk
    exact h j (List.mem_range.1 hj)
  · intro j v hj hv
    rw [State.slot_eq]
    have hn : b.slots.Nodup := by
      rw [Burst.slots_ascending ha]
      exact List.nodup_range.map fun x y e => Nat.add_left_cancel e
    have hk : b.slots[j]? = some (b.first + j) := by
      rw [Burst.slots_ascending ha]
      simp [hj]
    exact congrArg (Option.getD · _) (find_writeSlots b.page s.mem b.slots b.values hn hk hv)

theorem readSlots_length (s : State) (b : Burst) : (s.readSlots b).length = b.count := by
  simp [State.readSlots, Burst.slots]

theorem readSlots_getElem? (s : State) (b : Burst) {j : Nat} (h : j < b.count) :
    (s.readSlots b)[j]? =
      some (s.slot (b.page.val * 256 + if b.ascending = true then b.first + j else b.first - j)) := by
  simp [State.readSlots, Burst.slots, slotAddr, h]

/-- A disturbance changes the slot at its address, if one was written. -/
theorem find_upset (m : Memory) (u : Upset) (a : Nat) :
    (m.upset u).find a = if a = u.addr then (m.find a).map fun x => x.flip u.mask else m.find a := by
  unfold Memory.upset
  split
  case h_1 x hx =>
    rw [Memory.find_write]
    split
    case isTrue e => rw [e, hx]; rfl
    case isFalse => rfl
  case h_2 hx =>
    split
    case isTrue e => rw [e, hx]; rfl
    case isFalse => rfl

theorem Memory.find_isSome_iff (m : Memory) (a : Nat) : (m.find a).isSome ↔ ∃ x, (a, x) ∈ m := by
  induction m with
  | nil => simp [Memory.find]
  | cons kv r ih =>
    obtain ⟨k, v⟩ := kv
    rw [Memory.find_cons]
    split
    case isTrue e => simp [e]
    case isFalse e => simp [ih, Ne.symm e]

theorem disturb_slot_ne (s : State) (u : Upset) {a : Nat} (h : a ≠ u.addr) : (s.disturb [u]).slot a = s.slot a :=
  congrArg (Option.getD · _) ((find_upset s.mem u a).trans (if_neg h))

theorem disturb_slot (s : State) (u : Upset) {x : Slot} (h : (u.addr, x) ∈ s.mem) :
    (s.disturb [u]).slot u.addr = (s.slot u.addr).flip u.mask := by
  obtain ⟨y, hy⟩ := Option.isSome_iff_exists.1 ((Memory.find_isSome_iff s.mem u.addr).2 ⟨x, h⟩)
  have hf := (find_upset s.mem u u.addr).trans (if_pos rfl)
  rw [hy] at hf
  rw [State.slot_eq, State.slot_eq, hy]
  exact congrArg (Option.getD · _) hf

theorem disturb_unwritten (s : State) (u : Upset) (h : ∀ x, (u.addr, x) ∉ s.mem) : s.disturb [u] = s := by
  have hn : s.mem.find u.addr = none := by
    rw [← Option.not_isSome_iff_eq_none, Memory.find_isSome_iff]
    exact fun ⟨x, hx⟩ => h x hx
  have hm : s.mem.upset u = s.mem := by
    unfold Memory.upset
    rw [hn]
  exact congrArg (fun m : Memory => { s with mem := m }) hm

/-- Settles O20: the parity bit makes a written slot even and a flip adds the mask's parity; what a burst reads and writes
is read off its slots one by one. -/
theorem slotsWrittenAndRead : Obligations.SlotsWrittenAndRead := by
  refine ⟨⟨fun v => ⟨rfl, ?_, writtenSlot_even v⟩, fun _ => rfl, bad_flip, ?_, ?_, ?_, ?_⟩, fun s b j v ha _ =>
    ⟨(slot_writeSlots s b ha).1, (slot_writeSlots s b ha).2 j v⟩,
    fun s b => ⟨readSlots_length s b, fun j hj => readSlots_getElem? s b hj⟩, fun _ _ => rfl,
    fun s u us => ⟨fun a ha => disturb_slot_ne s u ha, fun x hx k => ?_, fun x hx => ?_, disturb_unwritten s u, rfl,
      rfl, rfl⟩⟩
  · simp [Slot.bad, writtenSlot_even v]
  · decide
  · decide
  · decide
  · decide
  · rw [disturb_slot s u hx]
    exact BitVec.getLsbD_xor
  · rw [disturb_slot s u hx]
    rfl

end Sys2Proof.Machine
end
section
/-! ## The walk of a list (R15, R43, R44) -/

namespace Sys2Proof.Machine

theorem successor_of_next {l : List Entry} {j x : EntryIx} {e : Entry} (h : l[j.val]? = some e) (hx : e.next = some x) :
    successor l j = some x := by
  simp [successor, h, hx]

theorem successor_of_none {l : List Entry} {j : EntryIx} {e : Entry} (h : l[j.val]? = some e) (hx : e.next = none) :
    successor l j =
      if h : j.val + 1 < 64 then (if j.val + 1 < l.length then some ⟨j.val + 1, h⟩ else none) else none := by
  simp [successor, h, hx]

theorem reversed_eq (e : Entry) (pass : Half) : e.reversed pass = match e.dir with
    | .forward => false
    | .reverse => true
    | .pingpong => decide (pass.toNat % 2 = 1) := by
  have hbit : pass.getLsbD 0 = decide (pass.toNat % 2 = 1) := by
    rw [BitVec.getLsbD, Nat.testBit_zero]
  unfold Entry.reversed
  cases e.dir
  case pingpong => exact hbit
  all_goals rfl

/-- Settles O24: the successor of an entry by whether it has a next, the direction by the parity of the pass. -/
theorem listsWalked : Obligations.ListsWalked := by
  intro l j e hl he
  refine ⟨fun x hx => successor_of_next he hx, fun hn hj => ?_, fun hn hj => ?_, reversed_eq e, fun L q _ => ⟨rfl, rfl⟩⟩
  · have h64 : j.val + 1 < 64 := by omega
    exact ⟨⟨j.val + 1, h64⟩, by rw [successor_of_none he hn, dif_pos h64, if_pos hj], rfl⟩
  · rw [successor_of_none he hn]
    split
    · exact if_neg (by omega)
    · rfl

end Sys2Proof.Machine
end

section
/-! ## The device reset -/

namespace Sys2Proof.Machine

/-- Settles O6: the state after the assertion of RESET is `State.reset` but for the queue, the reset line, the reset
count and the PRST lines. -/
theorem deviceReset : Obligations.DeviceReset := by
  intro s
  constructor
  · refine ⟨_, rfl, rfl, rfl, rfl, State.reset_page, ?_, rfl, State.reset_seg, State.reset_loadUnit,
      State.reset_chan, State.reset_claimOf, rfl, rfl, rfl, State.reset_tickOf, get_replicate _, fun p => ?_, rfl,
      get_replicate _, rfl, get_replicate _, fun l => ?_, fun p => ?_⟩
    · dsimp only
      exact State.reset_freeList
    · cases p <;> rfl
    · have hd : State.reset.drivers.get l = none := get_replicate _ l
      change (match State.reset.drivers.get l with
        | some (c, u) => ((State.reset.chan c).unit u).active
        | none => false) = false
      rw [hd]
    · cases p <;> exact ⟨rfl, rfl, rfl, rfl, rfl, rfl, rfl, rfl, rfl⟩
  · intro levels hr
    refine ⟨_, rfl, ?_⟩
    rw [if_pos hr]
    refine ⟨rfl, fun n => ?_, ?_⟩
    · simp [Vector.get_eq_getElem]
    · rw [← hr]

/-! ### The laws at reset -/

/-- No segment is bound, and no list has entries (R41, R46). -/
theorem reset_referenceLaw : State.reset.ReferenceLaw := by
  intro i
  have hn : State.reset.namings i = 0 := by
    simp [State.namings, State.reset, Chan.reset]
  rw [State.reset_seg, hn]
  exact ⟨rfl, rfl⟩

theorem reset_memoryLaw : State.reset.MemoryLaw :=
  ⟨rfl, fun _ hx => absurd hx List.not_mem_nil, fun _ hb => by cases hb⟩

theorem reset_loadLaw : State.reset.LoadLaw := by
  refine ⟨fun i hi => ?_, fun p => ?_, fun p r hr => ?_⟩
  · rw [State.reset_seg] at hi
    cases hi
  · rw [State.reset_loadUnit]
    exact rfl
  · rw [State.reset_loadUnit] at hr
    cases hr

theorem reset_countLaw : State.reset.CountLaw := by
  intro p
  rw [State.reset_loadUnit]
  refine ⟨⟨rfl, rfl, rfl, rfl⟩, by decide, by decide, Bool.noConfusion, fun b hb => ?_⟩
  cases hb

theorem reset_pageCountLaw : State.reset.PageCountLaw := by
  intro i
  rw [State.reset_seg]
  exact trivial

/-- Outside ARMING, ARMED and play the laws of the walk ask for nothing. -/
theorem reset_inactive (c : ChanId) : ¬ (State.reset.chan c).state.active = true := by
  rw [State.reset_chan]
  decide

theorem reset_keptLaw : State.reset.KeptLaw := fun _ hb => by cases hb

theorem reset_fifoLaw : State.reset.FifoLaw := by
  intro c
  rw [State.reset_chan]
  exact ⟨by decide, fun b hb => by cases hb⟩

theorem reset_protocolLaw : State.reset.ProtocolLaw := by
  intro p
  rw [State.reset_port, State.reset_loadUnit]
  exact ⟨by decide, by decide, fun r hr => by cases hr⟩

theorem reset_clockLaw : State.reset.ClockLaw := by
  refine ⟨by decide, by decide, fun _ => State.reset_tickOf, fun _ c => ?_⟩
  rw [State.reset_chan]
  rfl

theorem Marker.reset_law : Marker.reset.Law := ⟨by decide, by decide, by decide, by decide, fun _ => rfl, fun _ => rfl⟩

theorem Chan.reset_courseLaw : Chan.reset.CourseLaw := by
  simp [Chan.CourseLaw, Chan.reset]

theorem Chan.reset_underrunLaw : Chan.reset.UnderrunLaw := Nat.zero_le 2

theorem Chan.reset_rangeLaw : Chan.reset.RangeLaw := by
  refine ⟨by decide, by decide, by decide, by decide, fun n hn => ?_, by decide, by decide, by decide⟩
  cases hn

theorem Chan.reset_laneLaw : Chan.reset.LaneLaw := rfl

/-- Settles O52: each law of the state after reset by its own lemma; the laws of active channels hold of none. -/
theorem lawsHoldAtReset : Obligations.LawsHoldAtReset := by
  refine ⟨reset_memoryLaw, reset_pageLaw, reset_loadLaw, reset_referenceLaw, reset_countLaw, reset_pageCountLaw,
    fun c h => absurd h (reset_inactive c), reset_fifoLaw, reset_keptLaw,
    fun c h => absurd h (reset_inactive c), reset_protocolLaw, reset_clockLaw, fun p => ?_, fun p => ?_, fun c => ?_⟩
  · cases p <;> decide
  · rw [State.reset_port]
    exact ⟨List.Pairwise.nil, fun e he => absurd he List.not_mem_nil⟩
  · rw [State.reset_chan]
    exact ⟨Chan.reset_courseLaw, rfl, fun _ => ⟨rfl, rfl, rfl, rfl, rfl⟩, Chan.reset_underrunLaw, Chan.reset_laneLaw,
      ⟨Marker.reset_law, Marker.reset_law, fun _ => ⟨rfl, rfl, rfl, rfl⟩⟩, Chan.reset_rangeLaw⟩

end Sys2Proof.Machine
end

section
/-! ## Segments freed and readbacks cancelled (R19, R37, R118) -/

namespace Sys2Proof.Machine

/-- A burst of port p's readback with its items to be discarded (R29, R37). -/
def Burst.discard (p : Port) (b : Burst) : Burst :=
  if b.requester = .loadUnit p ∧ b.write = false then { b with keep := false } else b

theorem Burst.discard_of_ne {p : Port} {b : Burst} (h : b.requester ≠ .loadUnit p) : b.discard p = b :=
  if_neg fun hx => h hx.1

theorem Burst.discard_requester (p : Port) (b : Burst) : (b.discard p).requester = b.requester := by
  unfold Burst.discard
  split <;> rfl

theorem Burst.discard_write (p : Port) (b : Burst) : (b.discard p).write = b.write := by
  unfold Burst.discard
  split <;> rfl

/-- Of two ports whose items are discarded, only the one the burst is of counts. -/
theorem Burst.discard_both (b : Burst) (f : Port → Bool) :
    (let c := if f .a then b.discard .a else b
     if f .b then c.discard .b else c) =
      match b.requester with
      | .loadUnit p => if f p = true ∧ b.write = false then { b with keep := false } else b
      | .fetcher _ => b := by
  obtain ⟨rq, w, _, _, _, _, _, _, _⟩ := b
  cases rq with
  | fetcher c => simp [Burst.discard]
  | loadUnit p =>
    cases p <;> cases w <;> cases ha : f .a <;> cases hb : f .b <;> simp [Burst.discard, ha, hb]

theorem State.loadBurst_eq_some (s : State) (p : Port) (b : Burst) :
    s.loadBurst p = some b ↔ s.burst = some b ∧ b.requester = .loadUnit p := by
  unfold State.loadBurst
  cases s.burst with
  | none => simp
  | some x =>
    dsimp only
    split
    case isTrue h => simp +contextual [← h]
    case isFalse h =>
      simp only [reduceCtorEq, Option.some.injEq, false_iff, not_and]
      rintro rfl
      exact h

theorem State.loadBurst_eq_none (s : State) (p : Port) (h : ∀ b, s.burst = some b → b.requester ≠ .loadUnit p) :
    s.loadBurst p = none := by
  cases hl : s.loadBurst p with
  | none => rfl
  | some b =>
    obtain ⟨hb, hr⟩ := (s.loadBurst_eq_some p b).1 hl
    exact absurd hr (h b hb)

theorem State.loadBurst_congr {s t : State} (h : t.burst = s.burst) (p : Port) : t.loadBurst p = s.loadBurst p := by
  unfold State.loadBurst
  rw [h]

/-- The items that can be discarded are those of the port's own read burst. -/
theorem State.dropReadBurst_eq (s : State) (p : Port) :
    s.dropReadBurst p = { s with burst := s.burst.map (Burst.discard p) } := by
  have hs : ∀ o, s.burst = o → s = { s with burst := o } := fun o h => by rw [← h]
  unfold State.dropReadBurst
  cases hb : s.burst with
  | none =>
    rw [s.loadBurst_eq_none p (by simp [hb])]
    exact hs _ hb
  | some b =>
    by_cases hr : b.requester = .loadUnit p
    · rw [(s.loadBurst_eq_some p b).2 ⟨hb, hr⟩]
      dsimp only [Option.map_some]
      unfold Burst.discard
      cases hw : b.write
      · rw [if_neg (by decide), if_pos ⟨hr, rfl⟩]
      · rw [if_pos rfl, if_neg (by simp)]
        exact hs _ hb
    · rw [s.loadBurst_eq_none p (by simpa [hb] using hr), Option.map_some, Burst.discard_of_ne hr]
      exact hs _ hb

/-- A read burst of the other port is as it was. -/
theorem State.dropReadBurst_loadBurst_other (s : State) (p : Port) :
    (s.dropReadBurst p).loadBurst p.other = s.loadBurst p.other := by
  rw [s.dropReadBurst_eq p]
  unfold State.loadBurst
  cases s.burst with
  | none => rfl
  | some b =>
    dsimp only [Option.map_some]
    rw [Burst.discard_requester]
    split
    case isTrue h =>
      rw [Burst.discard_of_ne]
      rw [h]
      cases p <;> decide
    case isFalse => rfl

theorem State.readInFlight_congr {s t : State} {p : Port} (h : t.loadBurst p = s.loadBurst p) :
    t.readInFlight p = s.readInFlight p := by
  unfold State.readInFlight
  rw [h]

theorem State.readRequest_congr {s t : State} {p : Port} (hl : t.loadUnit p = s.loadUnit p)
    (hb : t.loadBurst p = s.loadBurst p) : t.readRequest p = s.readRequest p := by
  unfold State.readRequest
  rw [hl, hb]

/-- The port has a readback of segment i under way. -/
def State.reads (s : State) (i : SegId) (p : Port) : Bool :=
  (s.loadUnit p).readback.any fun r => decide (r.seg = i) && decide (r.mark = .live)

/-- The Load Unit of a port once segment i has become FREE (R37). -/
def State.unitFreed (s : State) (i : SegId) (p : Port) : LoadUnit :=
  match (s.loadUnit p).readback with
  | some r =>
    if r.seg = i ∧ r.mark = .live then
      { s.loadUnit p with
        readback := some { r with mark := if s.readInFlight p then .cancelledInFlight else .cancelled } }
    else s.loadUnit p
  | none => s.loadUnit p

theorem State.unitFreed_congr {s t : State} {i : SegId} {p : Port} (hl : t.loadUnit p = s.loadUnit p)
    (hb : t.loadBurst p = s.loadBurst p) : t.unitFreed i p = s.unitFreed i p := by
  unfold State.unitFreed
  rw [hl, State.readInFlight_congr hb]

theorem State.reads_congr {s t : State} {i : SegId} {p : Port} (hl : t.loadUnit p = s.loadUnit p) :
    t.reads i p = s.reads i p := by
  unfold State.reads
  rw [hl]

/-- What the cancellation of one port's readback does (R37, R118). -/
theorem State.cancelReadback_spec (s : State) (i : SegId) (p : Port) :
    s.cancelReadback i p = { s with
      loads := s.loads.set p (s.unitFreed i p)
      burst := if s.reads i p then s.burst.map (Burst.discard p) else s.burst
      arb := { s.arb with
        passOver := if s.reads i p ∧ s.readRequest p then s.arb.passOver.set p 0 else s.arb.passOver } } := by
  have hstay : s.reads i p = false → s.unitFreed i p = s.loadUnit p → s = { s with
      loads := s.loads.set p (s.unitFreed i p)
      burst := if s.reads i p then s.burst.map (Burst.discard p) else s.burst
      arb := { s.arb with
        passOver := if s.reads i p ∧ s.readRequest p then s.arb.passOver.set p 0 else s.arb.passOver } } := by
    intro h1 h2
    rw [h2, h1, if_neg (by decide), if_neg (by simp)]
    unfold State.loadUnit
    rw [PerPort.set_get]
  unfold State.cancelReadback
  dsimp only
  cases hr : (s.loadUnit p).readback with
  | none => exact hstay (by simp [State.reads, hr]) (by simp [State.unitFreed, hr])
  | some r =>
    dsimp only
    split
    case isTrue h =>
      have hreads : s.reads i p = true := by simp [State.reads, hr, h.1, h.2]
      have hu : s.unitFreed i p = { s.loadUnit p with
          readback := some { r with mark := if s.readInFlight p then .cancelledInFlight else .cancelled } } := by
        simp only [State.unitFreed, hr, if_pos h]
      rw [hu, hreads, State.dropReadBurst_eq]
      cases s.readRequest p <;> rfl
    case isFalse h =>
      refine hstay ?_ (by simp only [State.unitFreed, hr, if_neg h])
      simp only [State.reads, hr, Option.any_some, ← Bool.decide_and, decide_eq_false_iff_not]
      exact h

/-- The cancellation of one port's readback leaves the other port's Load Unit and burst alone. -/
theorem State.cancelReadback_other (s : State) (i : SegId) (p : Port) :
    (s.cancelReadback i p).loadUnit p.other = s.loadUnit p.other
      ∧ (s.cancelReadback i p).loadBurst p.other = s.loadBurst p.other := by
  rw [s.cancelReadback_spec i p]
  refine ⟨PerPort.get_set_other _ _ _, ?_⟩
  cases s.reads i p
  · rfl
  · have h := s.dropReadBurst_loadBurst_other p
    rw [s.dropReadBurst_eq p] at h
    exact h

/-- What the cancellation of both ports' readbacks does. -/
theorem State.cancelBoth_spec (s : State) (i : SegId) :
    (s.cancelReadback i .a).cancelReadback i .b = { s with
      loads := ⟨s.unitFreed i .a, s.unitFreed i .b⟩
      burst := s.burst.map fun b =>
        match b.requester with
        | .loadUnit p => if s.reads i p = true ∧ b.write = false then { b with keep := false } else b
        | .fetcher _ => b
      arb := { s.arb with passOver :=
        ⟨if s.reads i .a = true ∧ s.readRequest .a = true then 0 else s.arb.passOver.a,
          if s.reads i .b = true ∧ s.readRequest .b = true then 0 else s.arb.passOver.b⟩ } } := by
  have hl : (s.cancelReadback i .a).loadUnit .b = s.loadUnit .b := (s.cancelReadback_other i .a).1
  have hb : (s.cancelReadback i .a).loadBurst .b = s.loadBurst .b := (s.cancelReadback_other i .a).2
  rw [State.cancelReadback_spec (s.cancelReadback i .a), State.unitFreed_congr hl hb, State.reads_congr hl,
    State.readRequest_congr hl hb, s.cancelReadback_spec i .a]
  congr 1
  · cases s.burst with
    | none => cases s.reads i .a <;> cases s.reads i .b <;> rfl
    | some b =>
      refine Eq.trans ?_ (congrArg some (Burst.discard_both b (s.reads i)))
      cases s.reads i .a <;> cases s.reads i .b <;> rfl
  · dsimp only
    split <;> split <;> rfl

/-- The readbacks of both ports once segment i has become FREE. -/
theorem State.freeSegment_spec (s : State) (i : SegId) :
    s.freeSegment i = { (s.givePages (s.seg i).pages).setSeg i .freed with
      loads := ⟨s.unitFreed i .a, s.unitFreed i .b⟩
      burst := s.burst.map fun b =>
        match b.requester with
        | .loadUnit p => if s.reads i p = true ∧ b.write = false then { b with keep := false } else b
        | .fetcher _ => b
      arb := { s.arb with passOver :=
        ⟨if s.reads i .a = true ∧ s.readRequest .a = true then 0 else s.arb.passOver.a,
          if s.reads i .b = true ∧ s.readRequest .b = true then 0 else s.arb.passOver.b⟩ } } := by
  obtain ⟨pg, fl, rt, hg⟩ := s.givePages_eq (s.seg i).pages
  unfold State.freeSegment
  rw [hg, State.cancelBoth_spec]
  rfl

theorem State.freeSegment_rule (s : State) (i : SegId) : FreeRule s (s.freeSegment i) i := by
  obtain ⟨hf, hr, hp, hrest⟩ := givePages_rule s (s.seg i).pages
  have h := s.freeSegment_spec i
  refine ⟨by simp, fun j hj => by simp [hj], ?_, fun p => ?_, ⟨?_, fun p => ?_⟩,
    (congrArg (fun t : State => t.arb.rot) h :), (congrArg (fun t : State => t.arb.lastServed) h :)⟩
  · rw [h]
    exact ⟨hf, hr, hp, (congrArg (fun t : State => { t with
      segs := s.segs, loads := s.loads, burst := s.burst, arb := s.arb }) hrest :)⟩
  · rw [h]
    have h : State.unitFreed s i p = (⟨s.unitFreed i .a, s.unitFreed i .b⟩ : PerPort LoadUnit).get p := by
      cases p <;> rfl
    unfold State.unitFreed at h
    cases hrb : (s.loadUnit p).readback <;> rw [hrb] at h <;> exact h.symm
  · rw [h]
    rfl
  · rw [h]
    cases p <;> rfl

/-! ### The answers of cancelled readbacks (R37) -/

/-- The answer of a port's readback, if it is cancelled: it depends on the port's record and Load Unit only. -/
theorem State.answerCancelled_other (s : State) (p : Port) :
    (s.answerCancelled p).port p.other = s.port p.other
      ∧ (s.answerCancelled p).loadUnit p.other = s.loadUnit p.other := by
  unfold State.answerCancelled
  dsimp only
  split
  · split
    · exact ⟨by simp, PerPort.get_set_other _ _ _⟩
    · exact ⟨rfl, rfl⟩
  · exact ⟨rfl, rfl⟩

theorem State.answerCancelled_of_readback {s : State} {p : Port} {r : Readback}
    (hr : (s.loadUnit p).readback = some r) :
    s.answerCancelled p =
      if r.mark = .cancelled then
        (s.setLoad p { s.loadUnit p with readback := none }).respond p Code.readSegment .segmentState
          [byteOfNat r.seg.val]
      else s := by
  simp [State.answerCancelled, hr]

theorem State.answerCancelled_of_none {s : State} {p : Port} (hr : (s.loadUnit p).readback = none) :
    s.answerCancelled p = s := by
  simp [State.answerCancelled, hr]

/-- What `CancelledRule` says of one port holds of the answer of that port. -/
theorem answerCancelled_rule (s : State) (p : Port) (h : (s.port p).proto = .ready → (s.loadUnit p).readback = none) :
    match (s.loadUnit p).readback with
    | some r =>
      if r.mark = .cancelled then
        Answered s (s.answerCancelled p) p Code.readSegment .segmentState [byteOfNat r.seg.val]
          ∧ SameLine s (s.answerCancelled p) p ∧ ((s.answerCancelled p).port p).events = (s.port p).events
          ∧ (s.answerCancelled p).loadUnit p = { s.loadUnit p with readback := none }
      else (s.answerCancelled p).loadUnit p = s.loadUnit p ∧ (s.answerCancelled p).port p = s.port p
    | none => (s.answerCancelled p).loadUnit p = s.loadUnit p ∧ (s.answerCancelled p).port p = s.port p := by
  cases hr : (s.loadUnit p).readback with
  | none =>
    rw [State.answerCancelled_of_none hr]
    exact ⟨rfl, rfl⟩
  | some r =>
    have hp : (s.port p).proto ≠ .ready := fun e => by
      rw [h e] at hr
      cases hr
    rw [State.answerCancelled_of_readback hr]
    dsimp only
    split
    · simp [Answered, SameLine, hp, State.respond, State.setLoad_loadUnit_self]
    · exact ⟨rfl, rfl⟩

theorem State.answerCancelled_congr {s t : State} {p : Port} (hp : t.port p = s.port p)
    (hl : t.loadUnit p = s.loadUnit p) :
    (t.answerCancelled p).port p = (s.answerCancelled p).port p
      ∧ (t.answerCancelled p).loadUnit p = (s.answerCancelled p).loadUnit p := by
  unfold State.answerCancelled
  rw [hl]
  dsimp only
  split
  · split
    · simp [hp, State.respond, State.setLoad_loadUnit_self]
    · exact ⟨hp, hl⟩
  · exact ⟨hp, hl⟩

/-- Of a port, only the answer of its own readback is seen. -/
theorem State.settleCancelled_port (s : State) (p : Port) :
    s.settleCancelled.port p = (s.answerCancelled p).port p
      ∧ s.settleCancelled.loadUnit p = (s.answerCancelled p).loadUnit p := by
  cases p
  · exact (s.answerCancelled .a).answerCancelled_other .b
  · obtain ⟨hp, hl⟩ := s.answerCancelled_other .a
    exact State.answerCancelled_congr hp hl

theorem settleCancelled_rule (s : State) (h : ∀ p, (s.port p).proto = .ready → (s.loadUnit p).readback = none) :
    CancelledRule s s.settleCancelled := by
  refine ⟨?_, fun p => ?_⟩
  · obtain ⟨_, _, e⟩ := s.settleCancelled_eq
    rw [e]
  · obtain ⟨hp, hl⟩ := s.settleCancelled_port p
    have key := answerCancelled_rule s p (h p)
    simp only [Answered, SameLine, hp, hl] at key ⊢
    exact key

/-- Settles O16: pages given back, a segment freed, and the answers, each by its own rule. -/
theorem segmentsFreed : Obligations.SegmentsFreed :=
  ⟨givePages_rule, State.freeSegment_rule, settleCancelled_rule⟩

end Sys2Proof.Machine
end

section
/-! ## The end of a load (R25, R27 to R29) -/

namespace Sys2Proof.Machine

/-- Pages given back do not depend on the slots, the burst, the Load Units, the claims or the arbiter. -/
theorem State.givePages_with (s : State) (m : Memory) (o : Option Burst) (ls : PerPort LoadUnit) (cl : Vector Claim 8)
    (a : Arbiter) (l : List PageNo) :
    State.givePages { s with mem := m, burst := o, loads := ls, claims := cl, arb := a } l =
      { s.givePages l with mem := m, burst := o, loads := ls, claims := cl, arb := a } := by
  induction l generalizing s with
  | nil => rfl
  | cons n r ih =>
    have hn : State.givePage { s with mem := m, burst := o, loads := ls, claims := cl, arb := a } n =
        { s.givePage n with mem := m, burst := o, loads := ls, claims := cl, arb := a } := by
      rw [State.givePage_eq, State.givePage_eq]
      change (if (s.page n).suspect = true then _ else _) = _
      split <;> rfl
    rw [State.givePages_cons, hn, ih]
    rfl

/-- A load's segment is not the segment of a live readback: the one is LOADING, the other READY or DOOMED (R21, R33). -/
theorem loadLaw_quiet {s : State} (h : s.LoadLaw) {p : Port} {i : SegId} (hi : (s.loadUnit p).seg = some i) :
    ∀ q r, (s.loadUnit q).readback = some r → r.seg = i → r.mark ≠ .live := by
  obtain ⟨-, h2, h3⟩ := h
  intro q r hr hs hm
  have hl := h2 p
  rw [hi] at hl
  have := h3 q r hr hm
  rw [hs, hl.2.1] at this
  simp at this

/-- A Load Unit that is not in NONE has a load segment (R20, R21). -/
theorem loadLaw_seg {s : State} (h : s.LoadLaw) {p : Port} (hp : (s.loadUnit p).phase ≠ .noLoad) :
    ∃ i, (s.loadUnit p).seg = some i := by
  have hl := h.2.1 p
  cases hs : (s.loadUnit p).seg with
  | none =>
    rw [hs] at hl
    exact absurd hl hp
  | some i => exact ⟨i, rfl⟩

/-- A load ended whose segment no live readback reads: its pages are given back, its record takes the FREE values and
the Load Unit is back in NONE. -/
theorem State.endLoad_quiet {s : State} {p : Port} {i : SegId} (hi : (s.loadUnit p).seg = some i)
    (hq : ∀ q r, (s.loadUnit q).readback = some r → r.seg = i → r.mark ≠ .live) :
    s.endLoad p = ((s.givePages (s.seg i).pages).setSeg i .freed).setLoad p (s.loadUnit p).closed := by
  have hl : ((s.givePages (s.seg i).pages).setSeg i .freed).loadUnit p = s.loadUnit p := by
    obtain ⟨_, _, _, h⟩ := s.givePages_eq (s.seg i).pages
    rw [h]
    rfl
  unfold State.endLoad
  rw [hi]
  dsimp only
  rw [s.freeSegment_quiet i hq, hl]

/-- The state of a load whose completed write burst has left its buffer. -/
def State.drained (s : State) (p : Port) (b : Burst) : State :=
  { s with
    burst := none
    mem := writeSlots b.page s.mem b.slots b.values
    loads := s.loads.set p
      { s.loadUnit p with buffer := (s.loadUnit p).buffer.drop b.count, wpos := (s.loadUnit p).wpos + b.count } }

theorem State.drained_loadUnit (s : State) (p : Port) (b : Burst) :
    (s.drained p b).loadUnit p =
      { s.loadUnit p with buffer := (s.loadUnit p).buffer.drop b.count, wpos := (s.loadUnit p).wpos + b.count } :=
  PerPort.get_set_self _ _ _

theorem State.drained_loadUnit_other (s : State) (p : Port) (b : Burst) :
    (s.drained p b).loadUnit p.other = s.loadUnit p.other := PerPort.get_set_other _ _ _

theorem State.drained_readback (s : State) (p q : Port) (b : Burst) :
    ((s.drained p b).loadUnit q).readback = (s.loadUnit q).readback := by
  have h : (s.drained p b).loadUnit q = if q = p then _ else s.loadUnit q := PerPort.get_set _ _ _ _
  rw [h]
  split
  case isTrue e => rw [e]
  case isFalse => rfl

theorem State.drainDone_eq (s : State) (p : Port) (b : Burst) :
    s.drainDone p b =
      (if (s.loadUnit p).phase = .aborting then (s.drained p b).endLoad p else s.drained p b).arbitrate := rfl

/-- The completion of a write burst of an aborted load (R28). -/
theorem drained_aborted_rule {s : State} {p : Port} {b : Burst} (hlaw : s.LoadLaw)
    (ha : (s.loadUnit p).phase = .aborting) : DrainRule s ((s.drained p b).endLoad p) p b := by
  obtain ⟨i, hi⟩ := loadLaw_seg hlaw (p := p) (by rw [ha]; decide)
  have hq := loadLaw_quiet hlaw hi
  have hend := State.endLoad_quiet (s := s.drained p b) (p := p) (i := i)
    (by rw [State.drained_loadUnit]; exact hi) fun q r hr => hq q r (s.drained_readback p q b ▸ hr)
  have hfree : State.freeSegment { s with burst := none } i =
      State.setSeg (State.givePages { s with burst := none } (s.seg i).pages) i .freed :=
    State.freeSegment_quiet { s with burst := none } i hq
  have hg := fun m ls => s.givePages_with m none ls s.claims s.arb (s.seg i).pages
  obtain ⟨pg, fl, rt, hp⟩ := s.givePages_eq (s.seg i).pages
  rw [hp] at hg
  rw [show (s.drained p b).givePages ((s.drained p b).seg i).pages = _ from hg _ _] at hend
  rw [show State.givePages { s with burst := none } _ = _ from hg s.mem s.loads] at hfree
  unfold DrainRule
  dsimp only
  rw [ha, hi]
  dsimp only
  rw [hend, hfree, State.drained_loadUnit]
  refine ⟨rfl, rfl, rfl, ?_, ?_, State.setSeg_seg_self _ _ _, fun j hj => State.setSeg_seg_ne _ _ hj, rfl⟩
  · exact (State.setLoad_loadUnit_other _ _ _).trans (s.drained_loadUnit_other p b)
  · exact State.setLoad_loadUnit_self _ _ _

/-- Settles O17: outside ABORTING the completion moves the buffer and the write position; in ABORTING it frees the load
segment, which no readback under way reads. -/
theorem drainsComplete : Obligations.DrainsComplete := by
  intro s p b hlaw hb hreq hw
  refine ⟨if (s.loadUnit p).phase = .aborting then (s.drained p b).endLoad p else s.drained p b, ?_, ?_⟩
  · rw [← s.drainDone_eq p b]
    change Host.Outcome.next _ = _
    rw [hb]
    dsimp only
    rw [hreq, hw]
  · split
    case isTrue ha => exact drained_aborted_rule hlaw ha
    case isFalse ha =>
      refine ⟨rfl, rfl, rfl, s.drained_loadUnit_other p b, ?_⟩
      have h := s.drained_loadUnit p b
      dsimp only
      split
      case h_1 hp _ => exact absurd hp ha
      case h_2 hp _ => exact absurd hp ha
      all_goals exact ⟨h, rfl⟩

end Sys2Proof.Machine
end

section
/-! ## Port resets (R29, R161, R172) -/

namespace Sys2Proof.Machine

/-- The write burst in flight is in flight whichever read items are to be discarded. -/
theorem State.drainInFlight_dropReadBurst (s : State) (p : Port) :
    (s.dropReadBurst p).drainInFlight p = s.drainInFlight p := by
  rw [s.dropReadBurst_eq p]
  unfold State.drainInFlight State.loadBurst
  cases s.burst with
  | none => rfl
  | some b =>
    dsimp only [Option.map_some]
    rw [Burst.discard_requester]
    by_cases hr : b.requester = .loadUnit p
    · rw [if_pos hr, if_pos hr]
      dsimp only
      rw [Burst.discard_write]
      cases hw : b.write
      · rfl
      · rw [if_pos rfl, if_pos rfl, Burst.discard, if_neg (by simp [hw])]
    · rw [if_neg hr, if_neg hr]

theorem State.drainInFlight_congr {s t : State} (h : t.burst = s.burst) (p : Port) :
    t.drainInFlight p = s.drainInFlight p := by
  unfold State.drainInFlight
  rw [State.loadBurst_congr h]

/-- The arbiter with a port's pass-over count cleared. -/
def Arbiter.cleared (a : Arbiter) (p : Port) : Arbiter := { a with passOver := a.passOver.set p 0 }

theorem Arbiter.cleared_cleared (a : Arbiter) (p : Port) : (a.cleared p).cleared p = a.cleared p := by
  unfold Arbiter.cleared
  rw [PerPort.set_set]

/-- The load of port p has ended and the pages of its segment i are back. -/
def State.loadEnded (s : State) (i : SegId) (p : Port) : State :=
  ((s.givePages (s.seg i).pages).setSeg i .freed).setLoad p (s.loadUnit p).closed

theorem State.loadEnded_arb (s : State) (a : Arbiter) (i : SegId) (p : Port) :
    State.loadEnded { s with arb := a } i p = { s.loadEnded i p with arb := a } := by
  unfold State.loadEnded
  change State.setLoad (State.setSeg (State.givePages { s with arb := a } (s.seg i).pages) i .freed) p _ = _
  rw [s.givePages_with s.mem s.burst s.loads s.claims a]
  obtain ⟨_, _, _, h⟩ := s.givePages_eq (s.seg i).pages
  rw [h]
  rfl

/-- An open load aborted, its port's pass-over count cleared (R27): it ends, or waits for its write burst. -/
theorem State.abortOpen_cleared {s : State} {p : Port} {i : SegId} (hi : (s.loadUnit p).seg = some i)
    (hq : ∀ q r, (s.loadUnit q).readback = some r → r.seg = i → r.mark ≠ .live) :
    (s.abortOpen p).setPassOver p 0 =
      { (match s.drainInFlight p with
          | none => s.loadEnded i p
          | some b => s.setLoad p
              { s.loadUnit p with phase := .aborting, buffer := (s.loadUnit p).buffer.take b.count }) with
        arb := s.arb.cleared p } := by
  obtain ⟨a, ha, hs⟩ : ∃ a : Arbiter, a.cleared p = s.arb.cleared p
      ∧ (if s.drainRequest p then s.setPassOver p 0 else s) = { s with arb := a } := by
    split
    case isTrue => exact ⟨s.arb.cleared p, s.arb.cleared_cleared p, rfl⟩
    case isFalse => exact ⟨s.arb, rfl, rfl⟩
  unfold State.abortOpen
  rw [hs]
  dsimp only
  cases s.drainInFlight p with
  | some b =>
    rw [← ha]
    rfl
  | none =>
    have hend : State.endLoad { s with arb := a } p = State.loadEnded { s with arb := a } i p :=
      State.endLoad_quiet (s := { s with arb := a }) hi hq
    dsimp only
    rw [hend, s.loadEnded_arb, ← ha]
    rfl

/-- The Load Unit of a port after the port's reset (R29). -/
def State.unitReset (s : State) (p : Port) : LoadUnit :=
  if (s.loadUnit p).phase = .opened then
    match s.drainInFlight p with
    | none => ⟨.noLoad, none, 0, 0, [], false, none⟩
    | some b => { s.loadUnit p with
        phase := .aborting, buffer := (s.loadUnit p).buffer.take b.count, readback := none }
  else { s.loadUnit p with readback := none }

/-- The store and the segments after a port's reset (R29): a load with no write burst in flight ends. -/
def State.storeReset (s : State) (p : Port) : State :=
  if (s.loadUnit p).phase = .opened then
    match s.drainInFlight p, (s.loadUnit p).seg with
    | none, some i => (s.givePages (s.seg i).pages).setSeg i .freed
    | _, _ => s
  else s

/-- The Load Unit at a port reset, with the arbiter's count of the port cleared after it. -/
theorem State.resetLoad_cleared {s : State} (h : s.LoadLaw) (p : Port) :
    (s.resetLoad p).setPassOver p 0 = { s.storeReset p with
      burst := s.burst.map (Burst.discard p), loads := s.loads.set p (s.unitReset p), arb := s.arb.cleared p } := by
  have hd := s.drainInFlight_dropReadBurst p
  rw [s.dropReadBurst_eq p] at hd
  unfold State.resetLoad
  rw [s.dropReadBurst_eq p]
  dsimp only
  generalize hu : State.setLoad { s with burst := s.burst.map (Burst.discard p) } p _ = u
  have hu' : u = { s with
      burst := s.burst.map (Burst.discard p), loads := s.loads.set p { s.loadUnit p with readback := none } } := hu.symm
  have hl : u.loadUnit p = { s.loadUnit p with readback := none } := by
    rw [hu']
    exact PerPort.get_set_self _ _ _
  have hud : u.drainInFlight p = s.drainInFlight p := by
    rw [← hd]
    exact State.drainInFlight_congr (by rw [hu']) p
  by_cases hp : (s.loadUnit p).phase = .opened
  case neg =>
    rw [if_neg (by rw [hl]; exact hp), hu']
    unfold State.storeReset State.unitReset
    rw [if_neg hp, if_neg hp]
    rfl
  case pos =>
    obtain ⟨i, hi⟩ := loadLaw_seg h (p := p) (by rw [hp]; decide)
    have hq : ∀ q r, (u.loadUnit q).readback = some r → r.seg = i → r.mark ≠ .live := by
      intro q r hr
      by_cases hqp : q = p
      · rw [hqp, hl] at hr
        simp at hr
      · have ho : u.loadUnit q = s.loadUnit q := by
          rw [hu']
          exact (PerPort.get_set _ _ _ _).trans (if_neg hqp)
        exact loadLaw_quiet h hi q r (ho ▸ hr)
    rw [if_pos (by rw [hl]; exact hp), State.abortOpen_cleared (by rw [hl]; exact hi) hq, hud, hl]
    unfold State.storeReset State.unitReset
    rw [if_pos hp, if_pos hp, hi]
    cases s.drainInFlight p with
    | some b =>
      rw [hu']
      dsimp only [State.setLoad]
      rw [PerPort.set_set]
    | none =>
      obtain ⟨pg, fl, rt, hs⟩ := s.givePages_eq (s.seg i).pages
      have hg : u.givePages (u.seg i).pages = { u with pages := pg, freeList := fl, retired := rt } := by
        have hw := s.givePages_with s.mem u.burst u.loads s.claims s.arb (s.seg i).pages
        rw [hs, hu'] at hw
        rw [hu']
        exact hw
      dsimp only [State.loadEnded]
      rw [hg, hl, hu', hs]
      dsimp only [State.setLoad, State.setSeg, LoadUnit.closed]
      rw [PerPort.set_set]

end Sys2Proof.Machine
end

section
/-! ## What a port reset does (R161, R162) -/

namespace Sys2Proof.Machine

/-- The store after a port's reset: the pages of the load that ended are back, and nothing else moved. -/
theorem State.storeReset_eq (s : State) (p : Port) :
    ∃ pg fl rt sg, s.storeReset p = { s with pages := pg, freeList := fl, retired := rt, segs := sg } := by
  unfold State.storeReset
  split
  · split
    · obtain ⟨pg, fl, rt, h⟩ := s.givePages_eq (s.seg _).pages
      exact ⟨pg, fl, rt, _, by rw [h]; rfl⟩
    · exact ⟨_, _, _, _, rfl⟩
  · exact ⟨_, _, _, _, rfl⟩

theorem State.storeReset_claims (s : State) (cl : Vector Claim 8) (p : Port) :
    State.storeReset { s with claims := cl } p = { s.storeReset p with claims := cl } := by
  unfold State.storeReset
  change (if (s.loadUnit p).phase = .opened then
    match s.drainInFlight p, (s.loadUnit p).seg with
    | none, some i => (State.givePages { s with claims := cl } (s.seg i).pages).setSeg i .freed
    | _, _ => { s with claims := cl }
    else { s with claims := cl }) = _
  by_cases hp : (s.loadUnit p).phase = .opened
  case neg => rw [if_neg hp, if_neg hp]
  case pos =>
    rw [if_pos hp, if_pos hp]
    cases s.drainInFlight p with
    | some b => rfl
    | none =>
      cases (s.loadUnit p).seg with
      | none => rfl
      | some i =>
        have hw := s.givePages_with s.mem s.burst s.loads cl s.arb (s.seg i).pages
        obtain ⟨pg, fl, rt, hs⟩ := s.givePages_eq (s.seg i).pages
        dsimp only
        rw [hs] at hw
        rw [hw, hs]
        rfl

/-- A port reset, whole (R161). -/
theorem State.resetOnePort_whole {s : State} (h : s.LoadLaw) (p : Port) :
    s.resetOnePort p = { s.storeReset p with
      claims := s.claims.map fun k => if k.controller = some p then ⟨none, false⟩ else k
      burst := s.burst.map (Burst.discard p)
      loads := s.loads.set p (s.unitReset p)
      arb := s.arb.cleared p
      ports := s.ports.set p { s.port p with
        proto := .idle, unread := none, overrun := false, lost := false, events := [], enable := 0#15 } } := by
  have hc := fun cl => State.resetLoad_cleared (s := { s with claims := cl }) h p
  obtain ⟨_, _, _, _, hs⟩ := s.storeReset_eq p
  unfold State.resetOnePort
  dsimp only
  rw [hc, s.storeReset_claims, hs]
  rfl

/-- R29 of the state the store, the burst and the Load Unit show after a port reset. -/
theorem resetLoadRule_of {s t : State} {p : Port} (h : s.LoadLaw) (hl : t.loadUnit p = s.unitReset p)
    (hb : t.burst = s.burst.map (Burst.discard p)) (hsg : t.segs = (s.storeReset p).segs)
    (hfl : t.freeList = (s.storeReset p).freeList) (hrt : t.retired = (s.storeReset p).retired)
    (hpg : t.pages = (s.storeReset p).pages) : ResetLoadRule s t p := by
  unfold ResetLoadRule
  dsimp only
  unfold State.unitReset at hl
  unfold State.storeReset at hsg hfl hrt hpg
  refine ⟨?_, hb, ?_⟩
  · by_cases hp : (s.loadUnit p).phase = .opened
    case pos =>
      rw [hl, if_pos hp, hp]
      cases s.drainInFlight p <;> rfl
    case neg =>
      rw [hl, if_neg hp]
      split
      case h_1 hx _ => exact absurd hx hp
      case h_2 hx _ => exact absurd hx hp
      all_goals rfl
  · by_cases hp : (s.loadUnit p).phase = .opened
    case neg =>
      rw [if_neg hp] at hsg hfl hrt hpg
      split
      case h_1 hp' _ _ => exact absurd hp' hp
      case h_2 => exact ⟨hsg, hfl, hrt, hpg⟩
    case pos =>
      obtain ⟨i, hi⟩ := loadLaw_seg h (p := p) (by rw [hp]; decide)
      rw [if_pos hp, hi] at hsg hfl hrt hpg
      rw [hp, hi]
      cases hd : s.drainInFlight p with
      | some b =>
        rw [hd] at hsg hfl hrt hpg
        exact ⟨hsg, hfl, hrt, hpg⟩
      | none =>
        rw [hd] at hsg hfl hrt hpg
        dsimp only at hsg hfl hrt hpg ⊢
        have hr := givePages_rule s (s.seg i).pages
        obtain ⟨pg, fl, rt, hs⟩ := s.givePages_eq (s.seg i).pages
        rw [hs] at hsg hfl hrt hpg hr
        have hseg : ∀ j, t.seg j = (s.setSeg i .freed).seg j := by
          intro j
          unfold State.seg
          rw [hsg]
          rfl
        refine ⟨(hseg i).trans (s.setSeg_seg_self _ _), fun j hj => (hseg j).trans (s.setSeg_seg_ne _ hj), ?_⟩
        rw [hfl, hrt, hpg]
        exact hr

end Sys2Proof.Machine
end

section
/-! ## The rule of a port reset (R161, R162, R172) -/

namespace Sys2Proof.Machine

theorem resetOnePort_rule {s : State} (h : s.LoadLaw) (p : Port) : PortResetRule s (s.resetOnePort p) p := by
  rw [State.resetOnePort_whole h]
  obtain ⟨pg, fl, rt, sg, hs⟩ := s.storeReset_eq p
  refine ⟨fun c => ?_, resetLoadRule_of h ?_ rfl rfl rfl rfl rfl, ?_, ?_, ?_, ?_, ?_, ?_, ?_⟩
  · exact Vector.getElem_map _ _
  · exact PerPort.get_set_self _ _ _
  · exact PerPort.get_set_other _ _ _
  · exact PerPort.get_set_self _ _ _
  · exact PerPort.get_set_other _ _ _
  · rfl
  · rfl
  · exact PerPort.get_set_other _ _ _
  · rw [hs]

theorem resetOnePort_port {s : State} (h : s.LoadLaw) (p : Port) :
    (s.resetOnePort p).port p = { s.port p with
      proto := .idle, unread := none, overrun := false, lost := false, events := [], enable := 0#15 } := by
  rw [State.resetOnePort_whole h]
  exact PerPort.get_set_self _ _ _

/-- What a port reset does, said from a state that differs in the record of that port only. -/
theorem PortResetRule.of_rest {s u t : State} {p : Port} (hr : { u with ports := s.ports } = s)
    (ho : u.port p.other = s.port p.other) (h : PortResetRule u t p) : PortResetRule s t p := by
  obtain ⟨ps, rfl⟩ : ∃ ps, s = { u with ports := ps } := ⟨s.ports, hr.symm⟩
  obtain ⟨hclaims, ⟨hunit, hburst, hstore⟩, hunits, hcount, hcounts, hrot, hserved, hport, hrest⟩ := h
  refine ⟨hclaims, ⟨hunit, hburst, ?_⟩, hunits, hcount, hcounts, hrot, hserved, ?_, ?_⟩
  · revert hstore
    change _ → match (u.loadUnit p).phase, u.drainInFlight p, (u.loadUnit p).seg with
      | .opened, none, some i => _
      | _, _, _ => _
    cases (u.loadUnit p).phase with
    | noLoad => exact id
    | aborting => exact id
    | opened =>
      cases u.drainInFlight p with
      | some b => exact id
      | none =>
        cases (u.loadUnit p).seg with
        | none => exact id
        | some i =>
          rintro ⟨hi, hj, hfree, hretired, hpages, -⟩
          exact ⟨hi, hj, hfree, hretired, hpages, rfl⟩
  · exact hport.trans ho
  · exact (congrArg (fun x : State => { x with ports := ps }) hrest :)

/-- The record of another port plays no part in what a port reset does. -/
theorem PortResetRule.with_ports {s t : State} {p : Port} (h : PortResetRule s t p) (ps : PerPort PortRec)
    (ho : ps.get p.other = t.port p.other) : PortResetRule s { t with ports := ps } p := by
  obtain ⟨hclaims, hunit, hunits, hcount, hcounts, hrot, hserved, hport, hrest⟩ := h
  exact ⟨hclaims, hunit, hunits, hcount, hcounts, hrot, hserved, ho.trans hport, hrest⟩

/-- The state in which a frame's command acts keeps the laws of the Load Units. -/
theorem State.opened_loadLaw {s : State} (p : Port) (h : s.LoadLaw) : (s.opened p).LoadLaw := by
  rw [← s.opened_rest p] at h
  exact h

/-- Settles O7: each row is a port reset, whose rule is read off its closed form, with one more record written. -/
theorem portResets : Obligations.PortResets := by
  intro s p
  refine ⟨fun h => ⟨_, rfl, (resetOnePort_rule h p).with_ports _ (PerPort.get_set_other _ _ _), ?_⟩,
    fun h hl => ⟨_, rfl, ?_⟩, _, rfl, rfl⟩
  · refine (PerPort.get_set_self _ _ _).trans ?_
    rw [resetOnePort_port h]
  · have hu : (s.took (.resetPort p)).LoadLaw := by
      rw [← s.took_rest (.resetPort p)] at h
      exact h
    rw [onPort_listening _ _ hl, ← State.took_of (i := .resetPort p) rfl]
    generalize s.took (.resetPort p) = u at hu
    have ho := State.opened_loadLaw p hu
    refine ⟨PortResetRule.of_rest (u.opened_rest p) (u.opened_port_other p)
      ((resetOnePort_rule ho p).with_ports _ (PerPort.get_set_other _ _ _)), ?_⟩
    rw [State.respond_port, resetOnePort_port ho]
    obtain ⟨-, -, hheld, hout, -, -⟩ := u.opened_port p
    dsimp only [List.isEmpty_nil]
    rw [hheld, hout, show flagsByte false false (!true) = 0#8 by decide]

end Sys2Proof.Machine
end

section
/-! ## Readback bursts (R35 to R37, R175) -/

namespace Sys2Proof.Machine

/-- The readback of port p is answered and the Load Unit is without one. -/
def State.readbackAnswered (s : State) (p : Port) (st : Status) (payload : List Byte) : State :=
  (s.setLoad p { s.loadUnit p with readback := none }).respond p Code.readSegment st payload

/-- The answer to a readback is all that its end changes outside the store; a port that executes has no response to
lose. -/
theorem readbackAnswered_rule {s : State} {p : Port} (h : (s.port p).proto ≠ .ready) (st : Status)
    (payload : List Byte) :
    Answered s (s.readbackAnswered p st payload) p Code.readSegment st payload
      ∧ OnlyAnswer s (s.readbackAnswered p st payload) p
      ∧ (s.readbackAnswered p st payload).loadUnit p = { s.loadUnit p with readback := none }
      ∧ (s.readbackAnswered p st payload).loadUnit p.other = s.loadUnit p.other
      ∧ { s.readbackAnswered p st payload with ports := s.ports, loads := s.loads } = s := by
  have hp : (s.readbackAnswered p st payload).port p = _ := State.respond_port _ _ _ _ _
  have hs : (s.setLoad p { s.loadUnit p with readback := none }).port p = s.port p := rfl
  rw [hs] at hp
  refine ⟨⟨?_, ?_, ?_, ?_⟩, ⟨⟨?_, ?_, ?_⟩, ?_, ?_⟩, PerPort.get_set_self _ _ _, PerPort.get_set_other _ _ _, rfl⟩
  case refine_2 => simp [hp, h]
  case refine_9 => exact State.respond_port_other _ _ _ _ _
  all_goals rw [hp]

/-- The readback a kept burst extends. -/
theorem Readback.extend_readSlots (rb : Readback) (s : State) (b : Burst) :
    rb.extend (s.readSlots b) = { rb with
      next := rb.next + b.count
      remaining := rb.remaining - b.count
      samples := rb.samples ++ (s.readSlots b).map Slot.value
      suspects := rb.suspects ++ suspectIndices rb.next (s.readSlots b) } := by
  rw [← readSlots_length s b]
  rfl

theorem State.takeRead_eq {s : State} {p : Port} {rb : Readback} (hr : (s.loadUnit p).readback = some rb)
    (slots : List Slot) :
    s.takeRead p slots =
      if (rb.extend slots).remaining = 0 then s.readbackAnswered p (rb.extend slots).status (rb.extend slots).bytes
      else s.setLoad p { s.loadUnit p with readback := some (rb.extend slots) } := by
  simp only [State.takeRead, hr]
  rfl

theorem State.dropRead_of_waiting {s : State} {p : Port} {rb : Readback} (hr : (s.loadUnit p).readback = some rb)
    (hm : rb.mark = .cancelledInFlight) :
    s.dropRead p = s.readbackAnswered p .segmentState [byteOfNat rb.seg.val] := by
  simp only [State.dropRead, hr]
  rw [if_pos hm, State.answerCancelled_of_readback (by rw [State.setLoad_loadUnit_self]), if_pos rfl,
    State.setLoad_loadUnit_self]
  unfold State.readbackAnswered State.setLoad
  dsimp only
  rw [PerPort.set_set]

theorem State.dropRead_of_not_waiting {s : State} {p : Port} {rb : Readback} (hr : (s.loadUnit p).readback = some rb)
    (hm : rb.mark ≠ .cancelledInFlight) : s.dropRead p = s := by
  simp only [State.dropRead, hr]
  exact if_neg hm

theorem State.dropRead_of_none {s : State} {p : Port} (hr : (s.loadUnit p).readback = none) : s.dropRead p = s := by
  simp only [State.dropRead, hr]

/-- A burst kept for its readback (R35, R36). -/
theorem takeRead_rule {s : State} {p : Port} {b : Burst} {rb : Readback} (h : (s.port p).proto ≠ .ready)
    (hr : (s.loadUnit p).readback = some rb) :
    ReadbackRule s (s.endRead b) ((s.endRead b).takeRead p (s.readSlots b)) p b rb (s.readSlots b) := by
  have hend := endRead_rule s b
  obtain ⟨pg, fl, rt, hu⟩ := s.endRead_eq b
  have hur : ((s.endRead b).loadUnit p).readback = some rb := by rw [hu]; exact hr
  have hanswer := readbackAnswered_rule (s := s.endRead b) (p := p) (by rw [hu]; exact h)
    (rb.extend (s.readSlots b)).status (rb.extend (s.readSlots b)).bytes
  rw [State.takeRead_eq hur]
  rw [rb.extend_readSlots s b] at hanswer ⊢
  rw [hu] at hend hanswer ⊢
  unfold ReadbackRule
  dsimp only at hanswer ⊢
  by_cases hz : rb.remaining - b.count = 0
  · rw [if_pos hz, if_pos hz]
    obtain ⟨hans, honly, hunit, hother, hrest⟩ := hanswer
    exact ⟨hend, hother, hrest, hans, honly, hunit⟩
  · rw [if_neg hz, if_neg hz]
    exact ⟨hend, PerPort.get_set_other _ _ _, rfl, rfl, PerPort.get_set_self _ _ _⟩

/-- A burst whose items are discarded (R35, R37). -/
theorem dropRead_rule {s : State} {p : Port} (b : Burst)
    (h : (s.loadUnit p).readback.isSome → (s.port p).proto ≠ .ready) :
    ReadDroppedRule s (s.endRead b) ((s.endRead b).dropRead p) p b (s.readSlots b) := by
  have hend := endRead_rule s b
  obtain ⟨pg, fl, rt, hu⟩ := s.endRead_eq b
  have hunit : (s.endRead b).loadUnit p = s.loadUnit p := by rw [hu]; rfl
  refine ⟨hend, ?_⟩
  cases hr : (s.loadUnit p).readback with
  | none => exact State.dropRead_of_none (by rw [hunit, hr])
  | some rb =>
    by_cases hm : rb.mark = .cancelledInFlight
    case neg =>
      dsimp only
      rw [if_neg hm]
      exact State.dropRead_of_not_waiting (by rw [hunit, hr]) hm
    case pos =>
      have hanswer := readbackAnswered_rule (s := s.endRead b) (p := p)
        (by rw [hu]; exact h (by rw [hr]; rfl)) .segmentState [byteOfNat rb.seg.val]
      dsimp only
      rw [if_pos hm, State.dropRead_of_waiting (by rw [hunit, hr]) hm]
      rw [hu] at hanswer ⊢
      obtain ⟨hans, honly, hl, hother, hrest⟩ := hanswer
      exact ⟨hans, honly, hl, hother, hrest⟩

/-- The bits a fold sets are those set before it and those of the masks it met. -/
theorem getLsbD_foldl_or (f : Nat → Bool) (mask : Nat → Byte) (l : List Nat) (m : Byte) (n : Nat) :
    (l.foldl (fun m i => if f i then m ||| mask i else m) m).getLsbD n =
      (m.getLsbD n || l.any fun i => f i && (mask i).getLsbD n) := by
  induction l generalizing m with
  | nil => simp
  | cons i r ih =>
    rw [List.foldl_cons, ih, List.any_cons]
    cases f i <;> simp [Bool.or_assoc]

/-- The mask of place i of a byte has bit 7 - i only (R175). -/
theorem getLsbD_place (i j : Nat) (hi : i < 8) (hj : j < 8) : (0x80#8 >>> i).getLsbD (7 - j) = decide (i = j) := by
  interval_cases i <;> interval_cases j <;> rfl

/-- Byte k of a suspect map. -/
theorem suspectMap_byte (offset : Nat) (suspects : List Nat) {k : Nat} (hk : k < 16) :
    ∃ m, (suspectMap offset suspects)[k]? = some m
      ∧ ∀ j, j < 8 → m.getLsbD (7 - j) = decide (offset + 8 * k + j ∈ suspects) := by
  refine ⟨_, by rw [suspectMap, List.getElem?_map, List.getElem?_range hk]; rfl, fun j hj => ?_⟩
  rw [getLsbD_foldl_or, BitVec.getLsbD_zero, Bool.false_or, Bool.eq_iff_iff]
  simp only [List.any_eq_true, List.mem_range, Bool.and_eq_true, List.contains_iff_mem, decide_eq_true_eq]
  constructor
  · rintro ⟨i, hi, hmem, hbit⟩
    rw [getLsbD_place i j hi hj, decide_eq_true_eq] at hbit
    exact hbit ▸ hmem
  · intro hmem
    exact ⟨j, hj, hmem, by rw [getLsbD_place j j hj hj, decide_eq_true rfl]⟩

/-- Settles O18: a kept burst extends or answers the readback, a discarded one answers it when it is the burst a
cancelled readback waited for; a port with a readback executes, so neither answer can lose a response. -/
theorem readbacksComplete : Obligations.ReadbacksComplete := by
  intro s us p b hlaw hb hreq hw
  have hready : ((s.disturb us).loadUnit p).readback.isSome → ((s.disturb us).port p).proto ≠ .ready := by
    obtain ⟨-, hexec, -⟩ := hlaw p
    intro hr
    have he : ((s.disturb us).port p).proto = .executing := hexec.1 hr
    rw [he]
    decide
  have hrun : exec (.readbackBurstComplete us) s = .next ((s.disturb us).readDone p b) := by
    change Host.Outcome.next _ = _
    rw [hb]
    dsimp only
    rw [hreq, hw]
  refine ⟨(s.disturb us).endRead b, _, hrun, fun hk rb hr => ?_, fun hk => ?_,
    fun k slots => ⟨suspectIndices_sorted k slots, mem_suspectIndices k slots⟩,
    fun offset suspects => ⟨?_, fun j hj => ?_⟩⟩
  · rw [if_pos hk]
    have hr' : ((s.disturb us).loadUnit p).readback = some rb := hr
    exact takeRead_rule (hready (by rw [hr']; rfl)) hr'
  · rw [if_neg (by rw [hk]; decide)]
    exact dropRead_rule b hready
  · rw [suspectMap, List.length_map, List.length_range]
  · obtain ⟨m, hm, hbit⟩ := suspectMap_byte offset suspects (k := j / 8) (by omega)
    refine ⟨m, hm, (hbit (j % 8) (by omega)).trans ?_⟩
    rw [show offset + 8 * (j / 8) + j % 8 = offset + j by omega]

end Sys2Proof.Machine
end

section
/-! ## Fetch bursts (R105, R38, R62) -/

namespace Sys2Proof.Machine

theorem tailValue_eq (l : List Item) : tailValue l = (l.getLast?.map Item.value).getD 0#16 := by
  unfold tailValue
  cases l.getLast? <;> rfl

theorem fetchedItems_length (g : FetchTag) (q : Nat) (prev : Sample) (slots : List Slot) :
    (fetchedItems g q prev slots).length = slots.length := by
  induction slots generalizing q prev with
  | nil => rfl
  | cons x r ih =>
    unfold fetchedItems
    rw [List.length_cons, ih, List.length_cons]

/-- The value a slot fetched yields: its own, or in its place the one before it (R105). -/
def fetchedValue (prev : Sample) (x : Slot) : Sample := if Slot.bad x then prev else x.value

theorem fetchedItems_cons (g : FetchTag) (q : Nat) (prev : Sample) (x : Slot) (r : List Slot) :
    fetchedItems g q prev (x :: r) =
      ⟨fetchedValue prev x, g.entry, g.pass, q, decide (q + 1 = g.length)⟩
        :: fetchedItems g (q + 1) (fetchedValue prev x) r := rfl

/-- The value that stands for the slot before slot k. -/
def valueBefore (g : FetchTag) (q : Nat) (prev : Sample) (slots : List Slot) : Nat → Sample
  | 0 => prev
  | j + 1 => ((fetchedItems g q prev slots)[j]?.map Item.value).getD 0#16

theorem valueBefore_cons (g : FetchTag) (q : Nat) (prev : Sample) (x : Slot) (r : List Slot) (k : Nat) :
    valueBefore g q prev (x :: r) (k + 1) = valueBefore g (q + 1) (fetchedValue prev x) r k := by
  unfold valueBefore
  rw [fetchedItems_cons]
  cases k <;> rfl

/-- Item k of a burst (R105). -/
theorem fetchedItems_getElem? (g : FetchTag) (q : Nat) (prev : Sample) (slots : List Slot) (k : Nat) (x : Slot)
    (h : slots[k]? = some x) :
    (fetchedItems g q prev slots)[k]? =
      some ⟨fetchedValue (valueBefore g q prev slots k) x, g.entry, g.pass, q + k, decide (q + k + 1 = g.length)⟩ := by
  induction slots generalizing q prev k with
  | nil => simp at h
  | cons y r ih =>
    cases k with
    | zero =>
      obtain rfl : y = x := by simpa using h
      rfl
    | succ k =>
      rw [valueBefore_cons, fetchedItems_cons, List.getElem?_cons_succ, ih _ _ k (by simpa using h)]
      rw [show q + 1 + k = q + (k + 1) by omega]

/-- What a burst's items appended to the FIFO of channel c are: a substitution damages the segment and is a cause
(R38). -/
def Appended (s t : State) (c : ChanId) (items : List Item) (hurt : Option SegId) : Prop :=
  t.chan c = { s.chan c with fifo := (s.chan c).fifo ++ items }
    ∧ OtherChans s t c
    ∧ (∀ i, t.seg i = if hurt = some i then { s.seg i with damaged := true } else s.seg i)
    ∧ (∀ p, t.port p = { s.port p with
        events := if hurt.isSome then raiseIn (s.port p).events (.chan c) .parity .nothing else (s.port p).events })
    ∧ { t with chans := s.chans, segs := s.segs, ports := s.ports } = s

theorem Appended.nothing (s : State) (c : ChanId) : Appended s s c [] none :=
  ⟨by rw [List.append_nil], fun _ _ => rfl, fun _ => rfl, fun _ => rfl, rfl⟩

theorem appendFetched_appended (s : State) (c : ChanId) (g : FetchTag) (slots : List Slot) :
    Appended s (s.appendFetched c g slots) c
      (fetchedItems g g.index (((s.chan c).fifo.getLast?.map Item.value).getD 0#16) slots)
      (if slots.any Slot.bad then some g.seg else none) := by
  rw [← tailValue_eq]
  unfold State.appendFetched
  dsimp only
  split
  case isFalse =>
    exact ⟨State.setChan_chan_self _ _ _, fun d hd => State.setChan_chan_ne _ _ hd, fun _ => rfl, fun _ => rfl, rfl⟩
  case isTrue =>
    generalize hv : s.setChan c _ = v
    have hrec : v.seg g.seg = s.seg g.seg := by rw [← hv]; rfl
    rw [hrec]
    obtain ⟨hports, hrest⟩ := (v.setSeg g.seg { s.seg g.seg with damaged := true }).raiseBoth_spec (.chan c) .parity
    generalize State.raiseBoth _ _ _ = r at hports hrest ⊢
    have hchan : ∀ d, r.chan d = (s.setChan c _).chan d := fun d =>
      (congrArg (State.chan · d) hrest).trans (by rw [← hv]; rfl)
    have hseg : ∀ i, r.seg i = (s.setSeg g.seg { s.seg g.seg with damaged := true }).seg i := fun i =>
      (congrArg (State.seg · i) hrest).trans (by rw [← hv]; rfl)
    refine ⟨?_, fun d hd => ?_, fun i => ?_, fun p => ?_, ?_⟩
    · exact (hchan c).trans (State.setChan_chan_self _ _ _)
    · exact (hchan d).trans (State.setChan_chan_ne _ _ hd)
    · rw [hseg, State.setSeg_seg]
      by_cases hi : i = g.seg
      · rw [if_pos hi, if_pos (by rw [hi]), hi]
      · rw [if_neg hi, if_neg (by simpa using fun h => hi h.symm)]
    · rw [hports, show (v.setSeg g.seg { s.seg g.seg with damaged := true }).port p = s.port p by rw [← hv]; rfl]
      rfl
    · have hover := congrArg (fun x : State => { x with chans := s.chans, segs := s.segs, ports := s.ports }) hrest
      exact (hover : _ = _).trans (by rw [← hv]; rfl)

/-- What the end of prefill does to channel c (R62). -/
theorem endPrefill_spec (s : State) (c : ChanId) (hit : Prop) [Decidable hit]
    (hh : hit ↔ (s.chan c).state = .arming ∧ (64 ≤ (s.chan c).fifo.length ∨ (s.chan c).cursor = none)) :
    (s.endPrefill c).chan c = { s.chan c with state := if hit then .armed else (s.chan c).state }
      ∧ OtherChans s (s.endPrefill c) c
      ∧ (∀ p, (s.endPrefill c).port p = { s.port p with
          events := if hit then raiseIn (s.port p).events (.chan c) .armed .nothing else (s.port p).events })
      ∧ { s.endPrefill c with chans := s.chans, ports := s.ports } = s := by
  have hc : (s.chan c).state = .arming ∧ (s.chan c).prefilled ↔ hit := by
    rw [hh, Chan.prefilled, Bool.or_eq_true, decide_eq_true_eq, Option.isNone_iff_eq_none]
  unfold State.endPrefill
  by_cases h : hit
  · rw [if_pos (hc.2 h), if_pos h]
    obtain ⟨hports, -⟩ := (s.setChan c { s.chan c with state := .armed }).raiseBoth_spec (.chan c) .armed
    exact ⟨State.setChan_chan_self _ _ _, fun d hd => State.setChan_chan_ne _ _ hd,
      fun p => (hports p).trans (by rw [if_pos h]; rfl), rfl⟩
  · rw [if_neg fun h' => h (hc.1 h'), if_neg h]
    exact ⟨rfl, fun _ _ => rfl, fun p => by rw [if_neg h], rfl⟩

/-- The items a burst appends to a FIFO with that tail value. -/
def fetchItems (tail : Sample) (b : Burst) (slots : List Slot) : List Item :=
  match b.keep, b.tag with
  | true, some g => fetchedItems g g.index tail slots
  | _, _ => []

/-- The segment a burst damages. -/
def hurtSegment (b : Burst) (slots : List Slot) : Option SegId :=
  match b.keep, b.tag with
  | true, some g => if slots.any Slot.bad then some g.seg else none
  | _, _ => none

/-- What the Fetcher takes of its burst, before prefill ends. -/
def State.fetchTaken (s : State) (c : ChanId) (b : Burst) : State :=
  match b.keep, b.tag with
  | true, some g => (s.endRead b).appendFetched c g (s.readSlots b)
  | _, _ => s.endRead b

theorem fetchTaken_appended (s : State) (c : ChanId) (b : Burst) :
    Appended (s.endRead b) (s.fetchTaken c b) c
      (fetchItems ((((s.endRead b).chan c).fifo.getLast?.map Item.value).getD 0#16) b (s.readSlots b))
      (hurtSegment b (s.readSlots b)) := by
  unfold State.fetchTaken fetchItems hurtSegment
  cases b.keep with
  | false => exact .nothing _ c
  | true =>
    cases b.tag with
    | none => exact .nothing _ c
    | some g => exact appendFetched_appended _ c g _

/-- A segment is damaged by a burst that appends items in place of bad ones (R38): a burst of bad slots is not empty. -/
theorem hurtSegment_eq_some (tail : Sample) (b : Burst) (slots : List Slot) (i : SegId) :
    hurtSegment b slots = some i ↔
      (slots.any Slot.bad = true ∧ fetchItems tail b slots ≠ []) ∧ b.tag.map FetchTag.seg = some i := by
  unfold hurtSegment fetchItems
  cases b.keep with
  | false => simp
  | true =>
    cases b.tag with
    | none => simp
    | some g =>
      cases slots with
      | nil => simp
      | cons x r => simp [fetchedItems_cons]

theorem hurtSegment_isSome (tail : Sample) (b : Burst) (slots : List Slot) :
    (hurtSegment b slots).isSome = true ↔ slots.any Slot.bad = true ∧ fetchItems tail b slots ≠ [] := by
  rw [Option.isSome_iff_exists]
  simp only [hurtSegment_eq_some tail]
  constructor
  · rintro ⟨i, h, -⟩
    exact h
  · rintro ⟨hbad, hitems⟩
    cases htag : b.tag with
    | none => exact absurd (by unfold fetchItems; rw [htag]; cases b.keep <;> rfl) hitems
    | some g => exact ⟨g.seg, ⟨hbad, hitems⟩, rfl⟩

/-- The completion of a fetch burst (R105), before the arbiter decides. -/
theorem fetchTaken_rule (s : State) (c : ChanId) (b : Burst) :
    FetchRule s (s.endRead b) ((s.fetchTaken c b).endPrefill c) c b (s.readSlots b) := by
  have hend := endRead_rule s b
  obtain ⟨hchan, hchans, hseg, hport, hrest⟩ := fetchTaken_appended s c b
  obtain ⟨hchan', hchans', hport', hrest'⟩ := endPrefill_spec (s.fetchTaken c b) c _ Iff.rfl
  have hurt := fun i => hurtSegment_eq_some
    ((((s.endRead b).chan c).fifo.getLast?.map Item.value).getD 0#16) b (s.readSlots b) i
  have hsome := hurtSegment_isSome
    ((((s.endRead b).chan c).fifo.getLast?.map Item.value).getD 0#16) b (s.readSlots b)
  have hsegs : ((s.fetchTaken c b).endPrefill c).segs = (s.fetchTaken c b).segs :=
    (congrArg State.segs hrest' :)
  obtain ⟨pg, fl, rt, hu⟩ := s.endRead_eq b
  rw [hchan] at hchan'
  simp only [hchan, hport, hsome] at hport'
  simp only [hurt] at hseg
  rw [hu] at hend hchan' hchans hseg hport' hrest ⊢
  refine ⟨hend, hchan', fun d hd => (hchans' d hd).trans (hchans d hd), fun i => ?_, fun p => (hport' p).trans ?_, ?_⟩
  · refine Eq.trans ?_ (hseg i)
    unfold State.seg
    rw [hsegs]
  · rfl
  · have hover :=
      congrArg (fun x : State => { x with chans := s.chans, segs := s.segs, ports := s.ports }) hrest'
    exact (hover : _ = _).trans hrest

/-- Settles O19: the first clause is the rule of the burst's completion, the second reads item k off the list of
items. -/
theorem fetchesComplete : Obligations.FetchesComplete := by
  refine ⟨fun s us c b hb hreq => ⟨(s.disturb us).endRead b, _, ?_, fetchTaken_rule (s.disturb us) c b⟩,
    fun g q prev slots k x hx => ⟨_, fetchedItems_getElem? g q prev slots k x hx, rfl, rfl, rfl, rfl,
      fun hgood => if_neg (by rw [hgood]; decide), fun hbad => ?_⟩⟩
  · change Host.Outcome.next _ = _
    rw [hb]
    dsimp only
    rw [hreq]
    rfl
  · refine (if_pos hbad).trans ?_
    cases k <;> rfl

end Sys2Proof.Machine
end

section
/-! ## Reports (R16, R39, R55, R56, R177, R182) -/

namespace Sys2Proof.Machine

/-! ### The frame of a query -/

/-- A query whose command answers, whatever the ports hold, is answered and does nothing else. -/
theorem query_answered {i : Instr} {p : Port} {s : State} (hi : framePort i = some p) (hl : s.Listening p) {e : Byte}
    {st : Status} {pl : List Byte} {act : State → State}
    (h : ∀ ps, act { s with ports := ps } = State.respond { s with ports := ps } p e st pl) :
    OnlyAnswered (s.took i) (onPort p (frameLength i) s act) p e st pl := by
  obtain ⟨ps, hps⟩ : ∃ ps, (s.took i).opened p = { s with ports := ps } := by
    have h1 := (s.took i).opened_rest p
    have h2 := s.took_rest i
    rw [← h1] at h2
    exact ⟨((s.took i).opened p).ports,
      (congrArg (fun x : State => { x with ports := ((s.took i).opened p).ports }) h2 :)⟩
  have hans := respond_opened (s.took i) p e st pl
  rw [onPort_listening _ _ hl, ← State.took_of hi]
  rw [hps] at hans ⊢
  rw [h]
  exact hans

theorem chanOf_of_lt {ch : Byte} (h : ch.toNat < 8) : chanOf ch = some ⟨ch.toNat, h⟩ := dif_pos h

theorem chanOf_of_not_lt {ch : Byte} (h : ¬ ch.toNat < 8) : chanOf ch = none := dif_neg h

/-- A query of a channel: refused for a byte that names none, else answered with the channel's report. -/
theorem channelQuery_answered {i : Instr} {p : Port} {s : State} (hi : framePort i = some p) (hl : s.Listening p)
    {e ch : Byte} {act : State → State} {report : State → ChanId → List Byte} {Rule : ChanId → List Byte → Prop}
    (hrule : ∀ c, Rule c (report s c)) (hports : ∀ ps c, report { s with ports := ps } c = report s c)
    (hnone : chanOf ch = none → ∀ u, act u = u.respond p e .badArgument [])
    (hsome : ∀ c, chanOf ch = some c → ∀ u, act u = u.respond p e .ok (report u c)) :
    ∃ t payload, (.next (onPort p (frameLength i) s act) : Host.Outcome State Fault Refusal) = .next t
      ∧ if h : ch.toNat < 8 then Rule ⟨ch.toNat, h⟩ payload ∧ OnlyAnswered (s.took i) t p e .ok payload
        else OnlyAnswered (s.took i) t p e .badArgument [] := by
  by_cases h : ch.toNat < 8
  · refine ⟨_, report s ⟨ch.toNat, h⟩, rfl, ?_⟩
    rw [dif_pos h]
    exact ⟨hrule _, query_answered hi hl fun ps => by rw [hsome _ (chanOf_of_lt h), hports]⟩
  · refine ⟨_, [], rfl, ?_⟩
    rw [dif_neg h]
    exact query_answered hi hl fun ps => hnone (chanOf_of_not_lt h) _

/-! ### The head run (R16) -/

theorem headRun_cons_cons (x y : PageNo) (r : List PageNo) :
    headRun (x :: y :: r) = if y.val = x.val + 1 then headRun (y :: r) + 1 else 1 := rfl

theorem headRunRule_headRun (l : List PageNo) : HeadRunRule l (headRun l) := by
  induction l with
  | nil => simp [HeadRunRule, headRun]
  | cons x r ih =>
    cases r with
    | nil => simp [HeadRunRule, headRun]
    | cons y r =>
      obtain ⟨hle, hone, hrise, hstop⟩ := ih
      have hone := hone (List.cons_ne_nil _ _)
      rw [headRun_cons_cons]
      by_cases hxy : y.val = x.val + 1
      · rw [if_pos hxy]
        refine ⟨by simpa using hle, fun _ => by omega, fun k a b hk ha hb => ?_, fun k a b hk ha hb => ?_⟩
        · cases k with
          | zero =>
            obtain ⟨rfl, rfl⟩ : x = a ∧ y = b := ⟨by simpa using ha, by simpa using hb⟩
            exact hxy
          | succ k => exact hrise k a b (by omega) (by simpa using ha) (by simpa using hb)
        · cases k with
          | zero => omega
          | succ k => exact hstop k a b (by omega) (by simpa using ha) (by simpa using hb)
      · rw [if_neg hxy]
        refine ⟨by simp, fun _ => le_rfl, fun k a b hk => by omega, fun k a b hk ha hb => ?_⟩
        obtain rfl : k = 0 := by omega
        obtain ⟨rfl, rfl⟩ : x = a ∧ y = b := ⟨by simpa using ha, by simpa using hb⟩
        exact hxy

/-! ### The lowest index (R56) -/

theorem firstIndex_succ (f : Entry → Bool) (l : List Entry) (n : Nat) :
    firstIndex f l (n + 1) = (firstIndex f l n).map (· + 1) := by
  induction l generalizing n with
  | nil => rfl
  | cons e r ih =>
    unfold firstIndex
    split
    · rfl
    · exact ih (n + 1)

theorem lowestRule_firstIndex {f : Entry → Bool} {P : Entry → Prop} (hf : ∀ e, f e = true ↔ P e) (l : List Entry) :
    LowestRule l P (firstIndex f l 0) := by
  induction l with
  | nil => simp [LowestRule, firstIndex]
  | cons e r ih =>
    unfold firstIndex
    by_cases he : f e = true
    · rw [if_pos he]
      exact ⟨⟨e, rfl, (hf e).1 he⟩, fun i _ hi => absurd hi (Nat.not_lt_zero i)⟩
    · rw [if_neg he, firstIndex_succ]
      have hne : ¬ P e := fun h => he ((hf e).2 h)
      cases hr : firstIndex f r 0 with
      | none =>
        rw [hr] at ih
        exact List.forall_mem_cons.2 ⟨hne, ih⟩
      | some j =>
        rw [hr] at ih
        obtain ⟨hj, hlow⟩ := ih
        refine ⟨hj, fun i x hi hx => ?_⟩
        cases i with
        | zero =>
          obtain rfl : e = x := by simpa using hx
          exact hne
        | succ i => exact hlow i x (Nat.lt_of_succ_lt_succ hi) (by simpa using hx)

theorem Entry.unresolved_iff (n : Nat) (e : Entry) : e.unresolved n = true ↔ ∃ x, e.next = some x ∧ n ≤ x.val := by
  unfold Entry.unresolved
  cases e.next <;> simp

theorem listReport_rule (s : State) (c : ChanId) : ListReportRule s c (s.listReport c) := by
  refine ⟨_, _, lowestRule_firstIndex (Entry.unresolved_iff _) _,
    lowestRule_firstIndex (fun e => decide_eq_true_iff) _, rfl⟩

/-! ### The enumerations of the reports (R173, R174) -/

theorem portCode_eq_ite (q : Port) : Port.code q = if q = .a then 1#8 else 2#8 := by
  cases q <;> rfl

theorem Visibility.code_eq_ite (v : Visibility) : v.code = if v = .ownerOnly then 0#8 else 1#8 := by
  cases v <;> rfl

theorem FaultCause.code_eq_ite (k : FaultCause) : k.code = if k = .starved then 0#8 else 1#8 := by
  cases k <;> rfl

theorem putEntryFlags_eq_table (wait leave mk1 mk2 : Bool) :
    putEntryFlags wait leave mk1 mk2 = Table.entryFlags wait leave mk1 mk2 := by
  cases wait <;> cases leave <;> cases mk1 <;> cases mk2 <;> rfl

theorem Entry.bytes_eq_table (e : Entry) : e.bytes = Table.entry e := by
  unfold Entry.bytes Table.entry
  rw [putEntryFlags_eq_table]
  cases e.next <;> rfl

/-! ### The reports -/

/-- The report of a segment (R39). -/
theorem segmentReport_rule (s : State) (i : SegId) : SegmentReportRule s i (s.segmentReport i) := by
  unfold SegmentReportRule State.segmentReport
  dsimp only
  simp only [List.append_assoc, List.cons_append, List.nil_append, ← portCode_eq_ite, ← Visibility.code_eq_ite]
  rfl

/-- The staged record in the snapshot of a channel. -/
theorem putOpt_snapshot (r : PendingRec) :
    putOpt PendingRec.snapshot (if r.isEmpty then none else some r) =
      if r.isEmpty = true then [0#8]
      else [1#8] ++ putOpt putHalf r.gain ++ putOpt putHalf r.offset ++ putOpt putLongNat r.step ++ putOpt putHalf r.th1
        ++ putOpt putHalf r.th2 ++ [(r.point.map ApplyPoint.code).getD 0#8] ++ putFlag r.group := by
  split
  · rfl
  · simp [putOpt, PendingRec.snapshot, PendingRec.fields]

theorem pointCode_eq (o : Option ApplyPoint) : (o.map ApplyPoint.code).getD 0#8 = (match o with
    | none | some .now => 0#8
    | some .pass => 1#8
    | some .entry => 2#8
    | some .trigger => 3#8) := by
  rcases o with - | (- | - | - | -) <;> rfl

theorem putOpt_fault (o : Option FaultRec) : putOpt FaultRec.bytes o = (match o with
    | none => [0#8]
    | some f => [1#8, if f.cause = .starved then 0#8 else 1#8, byteOfNat f.entry.val] ++ putHalf f.pass
      ++ putWord f.index ++ [Table.chanState f.before]) := by
  cases o with
  | none => rfl
  | some f =>
    dsimp only
    rw [← FaultCause.code_eq_ite]
    rfl

theorem putOpt_stop (o : Option StopPoint) : putOpt putByte (o.map StopPoint.code) = (match o with
    | none => [0#8]
    | some .immediate => [1#8, 0#8]
    | some .atPass => [1#8, 1#8]
    | some .atListEnd => [1#8, 2#8]) := by
  rcases o with - | (- | - | -) <;> rfl

theorem putOpt_jump (o : Option EntryIx) : putOpt putByte (o.map fun j => byteOfNat j.val) = (match o with
    | none => [0#8]
    | some j => [1#8, byteOfNat j.val]) := by
  cases o <;> rfl

theorem controllerCode_eq (o : Option Port) : controllerCode o = (match o with
    | none => 0#8
    | some .a => 1#8
    | some .b => 2#8) := by
  rcases o with - | (- | -) <;> rfl

/-- The snapshot of a channel (R182). -/
theorem channelReport_rule (s : State) (c : ChanId) : ChannelReportRule s c (s.channelReport c) := by
  unfold ChannelReportRule State.channelReport LiveParams.bytes
  dsimp only
  rw [putOpt_snapshot, pointCode_eq, putOpt_fault, putOpt_stop, putOpt_jump, controllerCode_eq]
  simp only [List.append_assoc, List.cons_append, List.nil_append]
  rfl

/-- Settles O8: each query's command only answers, with a report that the ports' records play no part in. -/
theorem queriesReport : Obligations.QueriesReport := by
  intro s p hl
  refine ⟨⟨_, rfl, query_answered rfl hl fun ps => rfl⟩,
    ⟨_, rfl, query_answered rfl hl fun ps => rfl, headRunRule_headRun _⟩,
    fun seg => ⟨_, _, rfl, segmentReport_rule s _, query_answered rfl hl fun ps => rfl⟩, fun ch index => ⟨_, rfl, ?_⟩,
    fun ch => ?_, fun ch => ?_⟩
  · dsimp only
    split
    case isFalse h => exact query_answered rfl hl fun ps => by rw [chanOf_of_not_lt h]
    case isTrue h =>
      cases he : (s.chan ⟨ch.toNat, h⟩).list[index.toNat]? with
      | none =>
        refine query_answered rfl hl fun ps => ?_
        have he' : (State.chan { s with ports := ps } ⟨ch.toNat, h⟩).list[index.toNat]? = none := he
        rw [chanOf_of_lt h]
        dsimp only
        rw [he']
      | some e =>
        refine query_answered rfl hl fun ps => ?_
        have he' : (State.chan { s with ports := ps } ⟨ch.toNat, h⟩).list[index.toNat]? = some e := he
        rw [chanOf_of_lt h]
        dsimp only
        rw [he', ← Entry.bytes_eq_table]
        simp only [List.append_assoc, List.cons_append, List.nil_append]
        rfl
  · exact channelQuery_answered rfl hl (listReport_rule s) (fun _ _ => rfl) (fun h _ => by rw [h])
      (fun c h _ => by rw [h])
  · exact channelQuery_answered rfl hl (channelReport_rule s) (fun _ _ => rfl) (fun h _ => by rw [h])
      (fun c h _ => by rw [h])

end Sys2Proof.Machine
end

section
/-! ## The laws of loads and ports, in two sides (R18, R20, R21, R165, R167)

`LoadSide` holds what R18, R20 and R21 say of segments and Load Units, `Linked` what R165 and R167 say of ports and
readbacks. An operation mostly touches one of the two. -/

namespace Sys2Proof.Machine

/-! ### What the laws see -/

/-- What the laws of loads see of a segment: everything but visibility, count, damage and label. -/
def SegRec.core (r : SegRec) : SegRec := { r with vis := none, refs := 0, damaged := false, label := none }

theorem SegRec.core_eq_iff (r x : SegRec) : r.core = x.core ↔
    r.state = x.state ∧ r.owner = x.owner ∧ r.declared = x.declared ∧ r.length = x.length ∧ r.pages = x.pages := by
  simp [SegRec.core]

/-- What the laws of loads see of a Load Unit: everything but its readback. -/
def LoadUnit.core (u : LoadUnit) : LoadUnit := { u with readback := none }

theorem LoadUnit.core_eq_iff (u v : LoadUnit) : u.core = v.core ↔
    u.phase = v.phase ∧ u.seg = v.seg ∧ u.received = v.received ∧ u.wpos = v.wpos ∧ u.buffer = v.buffer
      ∧ u.oversize = v.oversize := by
  simp [LoadUnit.core]

/-- The counts of one Load Unit whose load declares d samples (R20, R23). -/
def LoadUnit.Counts (u : LoadUnit) (d : Nat) : Prop :=
  (match u.phase with
    | .noLoad => u.received = 0 ∧ u.wpos = 0 ∧ u.buffer = [] ∧ u.oversize = false
    | .opened => u.wpos + u.buffer.length = u.received ∧ u.received ≤ d
    | .aborting => u.wpos + u.buffer.length ≤ u.received ∧ u.received ≤ d)
    ∧ u.received ≤ 65536 ∧ u.buffer.length ≤ 128 ∧ (u.oversize = true → u.received = d)

/-- The counts of an open load. -/
theorem LoadUnit.counts_opened {u : LoadUnit} (h : u.phase = .opened) (d : Nat) : u.Counts d ↔
    (u.wpos + u.buffer.length = u.received ∧ u.received ≤ d)
      ∧ u.received ≤ 65536 ∧ u.buffer.length ≤ 128 ∧ (u.oversize = true → u.received = d) := by
  simp [LoadUnit.Counts, h]

/-- The counts of a load being aborted. -/
theorem LoadUnit.counts_aborting {u : LoadUnit} (h : u.phase = .aborting) (d : Nat) : u.Counts d ↔
    (u.wpos + u.buffer.length ≤ u.received ∧ u.received ≤ d)
      ∧ u.received ≤ 65536 ∧ u.buffer.length ≤ 128 ∧ (u.oversize = true → u.received = d) := by
  simp [LoadUnit.Counts, h]

/-- A write burst of n samples fits the load of a Load Unit (R24). -/
def LoadUnit.Drains (u : LoadUnit) (n : Nat) : Prop := u.phase ≠ .noLoad ∧ 1 ≤ n ∧ n ≤ u.buffer.length

/-- R20 and R24 of one port's Load Unit. -/
structure State.UnitCounted (s : State) (p : Port) : Prop where
  counts : (s.loadUnit p).Counts (s.declaredOf (s.loadUnit p))
  drain : ∀ b, s.drainInFlight p = some b → (s.loadUnit p).Drains b.count

theorem countLaw_iff (s : State) : s.CountLaw ↔ ∀ p, s.UnitCounted p := by
  refine forall_congr' fun p => ?_
  constructor
  · rintro ⟨h1, h2, h3, h4, h5⟩
    exact ⟨⟨h1, h2, h3, h4⟩, h5⟩
  · rintro ⟨⟨h1, h2, h3, h4⟩, h5⟩
    exact ⟨h1, h2, h3, h4, h5⟩

/-- The page count of one segment, with the range of its length (R17, R18, R22). -/
def SegRec.PagesCounted (r : SegRec) : Prop :=
  match r.state with
  | .free => True
  | .loading => ∃ d, r.declared = some d ∧ 16 ≤ d ∧ d ≤ 65536 ∧ r.pages.length = (d + 255) / 256
  | .ready | .doomed => ∃ l, r.length = some l ∧ 16 ≤ l ∧ l ≤ 65536 ∧ r.pages.length = (l + 255) / 256

theorem SegRec.pagesCounted_loading {r : SegRec} (h : r.state = .loading) : r.PagesCounted ↔
    ∃ d, r.declared = some d ∧ 16 ≤ d ∧ d ≤ 65536 ∧ r.pages.length = (d + 255) / 256 := by
  simp [SegRec.PagesCounted, h]

theorem SegRec.pagesCounted_of_free {r : SegRec} (h : r.state = .free) : r.PagesCounted := by
  simp [SegRec.PagesCounted, h]

theorem SegRec.pagesCounted_readable {r : SegRec} (h : r.state = .ready ∨ r.state = .doomed) : r.PagesCounted ↔
    ∃ l, r.length = some l ∧ 16 ≤ l ∧ l ≤ 65536 ∧ r.pages.length = (l + 255) / 256 := by
  rcases h with h | h <;> simp [SegRec.PagesCounted, h]

theorem SegRec.PagesCounted.of_core {r x : SegRec} (h : r.core = x.core) (hx : x.PagesCounted) : r.PagesCounted := by
  obtain ⟨hstate, -, hdeclared, hlength, hpages⟩ := (SegRec.core_eq_iff r x).1 h
  unfold SegRec.PagesCounted at hx ⊢
  rw [hstate, hdeclared, hlength, hpages]
  exact hx

theorem LoadUnit.Counts.of_core {u v : LoadUnit} {d : Nat} (h : u.core = v.core) (hv : v.Counts d) : u.Counts d := by
  obtain ⟨hphase, -, hreceived, hwpos, hbuffer, hoversize⟩ := (LoadUnit.core_eq_iff u v).1 h
  unfold LoadUnit.Counts at hv ⊢
  rw [hphase, hreceived, hwpos, hbuffer, hoversize]
  exact hv

theorem LoadUnit.Drains.of_core {u v : LoadUnit} {n : Nat} (h : u.core = v.core) (hv : v.Drains n) : u.Drains n := by
  obtain ⟨hphase, -, -, -, hbuffer, -⟩ := (LoadUnit.core_eq_iff u v).1 h
  unfold LoadUnit.Drains at hv ⊢
  rw [hphase, hbuffer]
  exact hv

/-- The declared length depends on the load segment's number and that segment's record only. -/
theorem State.declaredOf_congr {s t : State} {u v : LoadUnit} (hu : v.seg = u.seg)
    (hs : ∀ i, u.seg = some i → (t.seg i).declared = (s.seg i).declared) : t.declaredOf v = s.declaredOf u := by
  unfold State.declaredOf
  rw [hu]
  cases h : u.seg with
  | none => rfl
  | some i => exact congrArg (Option.getD · 0) (hs i h)

theorem State.UnitCounted.of_core {s t : State} {p : Port} (h : s.UnitCounted p)
    (hu : (t.loadUnit p).core = (s.loadUnit p).core)
    (hs : ∀ i, (s.loadUnit p).seg = some i → (t.seg i).declared = (s.seg i).declared)
    (hd : ∀ b, t.drainInFlight p = some b →
      (∃ x, s.drainInFlight p = some x ∧ x.count = b.count) ∨ (s.loadUnit p).Drains b.count) : t.UnitCounted p := by
  obtain ⟨-, hseg, -⟩ := (LoadUnit.core_eq_iff _ _).1 hu
  refine ⟨?_, fun b hb => ?_⟩
  · rw [State.declaredOf_congr hseg hs]
    exact h.counts.of_core hu
  · rcases hd b hb with ⟨x, hx, hc⟩ | hx
    · exact hc ▸ (h.drain x hx).of_core hu
    · exact hx.of_core hu

theorem State.declaredOf_of_seg {s : State} {u : LoadUnit} {i : SegId} (h : u.seg = some i) :
    s.declaredOf u = (s.seg i).declared.getD 0 := by
  simp [State.declaredOf, h]

theorem State.drainInFlight_eq_some (s : State) (p : Port) (b : Burst) :
    s.drainInFlight p = some b ↔ s.burst = some b ∧ b.requester = .loadUnit p ∧ b.write = true := by
  rw [← and_assoc, ← s.loadBurst_eq_some p b]
  unfold State.drainInFlight
  cases s.loadBurst p with
  | none => simp
  | some x =>
    dsimp only
    split
    case isTrue h => simp +contextual [← h, eq_comm]
    case isFalse h =>
      simp only [reduceCtorEq, Option.some.injEq, false_iff, not_and]
      rintro rfl
      exact h

/-! ### The load side -/

/-- The open-load law with a LOADING segment and its Load Unit naming each other, and, where they are asked for, the counts
of R18 and R20. -/
structure State.LoadSide (counted : Prop) (s : State) : Prop where
  owned : ∀ i, (s.seg i).state = .loading → ∃ p, (s.seg i).owner = some p
  holds : ∀ p i, (s.loadUnit p).seg = some i ↔ (s.seg i).state = .loading ∧ (s.seg i).owner = some p
  phase : ∀ p, (s.loadUnit p).seg = none ↔ (s.loadUnit p).phase = .noLoad
  live : ∀ p r, (s.loadUnit p).readback = some r → r.mark = .live →
    (s.seg r.seg).state = .ready ∨ (s.seg r.seg).state = .doomed
  counts : counted → ∀ p, s.UnitCounted p
  pages : counted → ∀ i, (s.seg i).PagesCounted

theorem State.LoadSide.loadLaw {C : Prop} {s : State} (h : s.LoadSide C) : s.LoadLaw := by
  refine ⟨fun i hi => ?_, fun p => ?_, h.live⟩
  · obtain ⟨p, hp⟩ := h.owned i hi
    exact ⟨p, hp, (h.holds p i).2 ⟨hi, hp⟩⟩
  · cases hp : (s.loadUnit p).seg with
    | none => exact (h.phase p).1 hp
    | some i =>
      refine ⟨fun hn => ?_, (h.holds p i).1 hp⟩
      rw [(h.phase p).2 hn] at hp
      cases hp

theorem State.LoadLaw.loadSide {C : Prop} {s : State} (h : s.LoadLaw) (hc : C → s.CountLaw ∧ s.PageCountLaw) :
    s.LoadSide C := by
  obtain ⟨h1, h2, h3⟩ := h
  refine ⟨fun i hi => ?_, fun p i => ⟨fun hp => ?_, fun ⟨hi, ho⟩ => ?_⟩, fun p => ⟨fun hp => ?_, fun hn => ?_⟩, h3,
    fun c => (countLaw_iff s).1 (hc c).1, fun c => (hc c).2⟩
  · obtain ⟨p, hp, -⟩ := h1 i hi
    exact ⟨p, hp⟩
  · have h := h2 p
    rw [hp] at h
    exact h.2
  · obtain ⟨q, hq, hu⟩ := h1 i hi
    obtain rfl : q = p := Option.some.inj (hq.symm.trans ho)
    exact hu
  · have h := h2 p
    rw [hp] at h
    exact h
  · have h := h2 p
    cases hp : (s.loadUnit p).seg with
    | none => rfl
    | some i =>
      rw [hp] at h
      exact absurd hn h.1

/-- A segment that is neither READY nor DOOMED is not read by a readback under way. -/
theorem State.LoadSide.not_live {C : Prop} {s : State} (h : s.LoadSide C) {i : SegId}
    (hr : (s.seg i).state ≠ .ready) (hd : (s.seg i).state ≠ .doomed) {p : Port} {r : Readback}
    (hp : (s.loadUnit p).readback = some r) (hi : r.seg = i) : r.mark ≠ .live := by
  rintro hm
  rcases h.live p r hp hm with e | e <;> rw [hi] at e
  exacts [hr e, hd e]

theorem State.LoadSide.loading {C : Prop} {s : State} (h : s.LoadSide C) {p : Port} {i : SegId}
    (hi : (s.loadUnit p).seg = some i) : (s.seg i).state = .loading := ((h.holds p i).1 hi).1

/-- Segments and loads are where they were, the counts within a load apart. -/
structure SameHolders (counted : Prop) (s t : State) : Prop where
  seg : ∀ i, (t.seg i).core = (s.seg i).core
  unit : ∀ p, (t.loadUnit p).seg = (s.loadUnit p).seg
  phase : ∀ p, (t.loadUnit p).phase = .noLoad ↔ (s.loadUnit p).phase = .noLoad
  live : ∀ p r, (t.loadUnit p).readback = some r → r.mark = .live →
    (s.seg r.seg).state = .ready ∨ (s.seg r.seg).state = .doomed
  counts : counted → ∀ p, t.UnitCounted p

theorem State.LoadSide.kept {C : Prop} {s t : State} (hs : s.LoadSide C) (h : SameHolders C s t) : t.LoadSide C := by
  have hseg := fun i => (SegRec.core_eq_iff _ _).1 (h.seg i)
  refine ⟨fun i hi => ?_, fun p i => ?_, fun p => ?_, fun p r hr hm => ?_, h.counts,
    fun c i => (hs.pages c i).of_core (h.seg i)⟩
  · obtain ⟨hstate, howner, -⟩ := hseg i
    rw [howner]
    exact hs.owned i (hstate ▸ hi)
  · obtain ⟨hstate, howner, -⟩ := hseg i
    rw [hstate, howner, h.unit]
    exact hs.holds p i
  · rw [h.unit, h.phase]
    exact hs.phase p
  · obtain ⟨hstate, -⟩ := hseg r.seg
    rw [hstate]
    exact h.live p r hr hm

/-- What the load side sees is the same: segments and Load Units in what the laws see of them, no readback newly under way,
and a write burst in flight that was in flight or fits its load. -/
structure SameRecords (s t : State) : Prop where
  seg : ∀ i, (t.seg i).core = (s.seg i).core
  unit : ∀ p, (t.loadUnit p).core = (s.loadUnit p).core
  live : ∀ p r, (t.loadUnit p).readback = some r → r.mark = .live →
    ∃ x, (s.loadUnit p).readback = some x ∧ x.seg = r.seg ∧ x.mark = .live
  drain : ∀ p b, t.drainInFlight p = some b →
    (∃ x, s.drainInFlight p = some x ∧ x.count = b.count) ∨ (s.loadUnit p).Drains b.count

theorem SameRecords.trans {s u t : State} (h : SameRecords s u) (k : SameRecords u t) : SameRecords s t := by
  refine ⟨fun i => (k.seg i).trans (h.seg i), fun p => (k.unit p).trans (h.unit p), fun p r hr hm => ?_,
    fun p b hb => ?_⟩
  · obtain ⟨x, hx, hxs, hxm⟩ := k.live p r hr hm
    obtain ⟨y, hy, hys, hym⟩ := h.live p x hx hxm
    exact ⟨y, hy, hys.trans hxs, hym⟩
  · rcases k.drain p b hb with ⟨x, hx, hc⟩ | hd
    · rw [← hc]
      exact h.drain p x hx
    · exact .inr (hd.of_core (h.unit p).symm)

theorem State.LoadSide.same {C : Prop} {s t : State} (hs : s.LoadSide C) (h : SameRecords s t) : t.LoadSide C := by
  have hunit := fun p => (LoadUnit.core_eq_iff _ _).1 (h.unit p)
  refine hs.kept ⟨h.seg, fun p => (hunit p).2.1, fun p => by rw [(hunit p).1], fun p r hr hm => ?_, fun c p => ?_⟩
  · obtain ⟨x, hx, he, hxm⟩ := h.live p r hr hm
    exact he ▸ hs.live p x hx hxm
  · refine (hs.counts c p).of_core (h.unit p) (fun i _ => ?_) (h.drain p)
    obtain ⟨-, -, hdeclared, -⟩ := (SegRec.core_eq_iff _ _).1 (h.seg i)
    exact hdeclared

/-- Load Unit v has the load and the readback of u, with other counts. -/
structure LoadUnit.SameLoad (u v : LoadUnit) : Prop where
  seg : v.seg = u.seg
  phase : v.phase = .noLoad ↔ u.phase = .noLoad
  readback : v.readback = u.readback

/-- The counts of one Load Unit change within its load. -/
theorem State.LoadSide.setUnit {C : Prop} {s t : State} {p : Port} {v : LoadUnit} (hs : s.LoadSide C)
    (hseg : ∀ i, t.seg i = s.seg i) (hunit : ∀ q, t.loadUnit q = if q = p then v else s.loadUnit q)
    (hv : (s.loadUnit p).SameLoad v) (hdrain : ∀ q, q ≠ p → ∀ b, t.drainInFlight q = some b → s.drainInFlight q = some b)
    (hcounts : C → v.Counts (s.declaredOf (s.loadUnit p)) ∧ ∀ b, t.drainInFlight p = some b → v.Drains b.count) :
    t.LoadSide C := by
  have hself : t.loadUnit p = v := (hunit p).trans (if_pos rfl)
  have hother : ∀ q, q ≠ p → t.loadUnit q = s.loadUnit q := fun q hq => (hunit q).trans (if_neg hq)
  have hsame : ∀ q, (s.loadUnit q).SameLoad (t.loadUnit q) := fun q => by
    by_cases e : q = p
    · rw [e, hself]
      exact hv
    · rw [hother q e]
      exact ⟨rfl, .rfl, rfl⟩
  refine hs.kept ⟨fun i => by rw [hseg], fun q => (hsame q).seg, fun q => (hsame q).phase, fun q r hr => ?_, fun c q => ?_⟩
  · rw [(hsame q).readback] at hr
    exact hs.live q r hr
  · by_cases e : q = p
    · subst e
      obtain ⟨hcounts, hdrains⟩ := hcounts c
      refine ⟨?_, by rw [hself]; exact hdrains⟩
      have hdeclared : t.declaredOf (t.loadUnit q) = s.declaredOf (s.loadUnit q) :=
        State.declaredOf_congr (hsame q).seg fun i _ => by rw [hseg]
      rw [hdeclared, hself]
      exact hcounts
    · exact (hs.counts c q).of_core (by rw [hother q e]) (fun i _ => by rw [hseg])
        fun b hb => .inl ⟨b, hdrain q e b hb, rfl⟩

/-- The load of port p on segment i begins or ends; other segments, the other Load Unit and the readbacks are as they were. -/
structure LoadMoved (counted : Prop) (s t : State) (p : Port) (i : SegId) : Prop where
  seg : ∀ j, j ≠ i → t.seg j = s.seg j
  unit : ∀ q, q ≠ p → t.loadUnit q = s.loadUnit q
  readback : (t.loadUnit p).readback = (s.loadUnit p).readback
  before : (s.loadUnit p).seg = some i ∨ (s.loadUnit p).seg = none ∧ (s.seg i).state = .free
  after :
    ((t.loadUnit p).seg = some i ∧ (t.loadUnit p).phase ≠ .noLoad
        ∧ (t.seg i).state = .loading ∧ (t.seg i).owner = some p)
      ∨ (t.loadUnit p).seg = none ∧ (t.loadUnit p).phase = .noLoad ∧ (t.seg i).state ≠ .loading
  drain : ∀ q, q ≠ p → ∀ b, t.drainInFlight q = some b → s.drainInFlight q = some b
  counts : counted → t.UnitCounted p
  pages : counted → (t.seg i).PagesCounted

theorem State.LoadSide.moved {C : Prop} {s t : State} {p : Port} {i : SegId} (hs : s.LoadSide C)
    (h : LoadMoved C s t p i) : t.LoadSide C := by
  -- Before the event segment i is no other port's, no other segment is port p's, and no readback under way reads it.
  have hi : ∀ q, q ≠ p → (s.loadUnit q).seg ≠ some i := fun q hq e => by
    obtain ⟨hl, ho⟩ := (hs.holds q i).1 e
    rcases h.before with hp | ⟨-, hf⟩
    · exact hq (Option.some.inj (ho.symm.trans ((hs.holds p i).1 hp).2))
    · rw [hf] at hl
      cases hl
  have hp : ∀ j, j ≠ i → (s.loadUnit p).seg ≠ some j := fun j hj e => by
    rcases h.before with hp | ⟨hp, -⟩ <;> rw [hp] at e <;> cases e
    exact hj rfl
  have hquiet : ∀ q r, (s.loadUnit q).readback = some r → r.mark = .live → r.seg ≠ i := fun q r hr hm e => by
    have hst : (s.seg i).state = .loading ∨ (s.seg i).state = .free := h.before.imp hs.loading And.right
    refine hs.not_live ?_ ?_ hr e hm <;> rcases hst with e | e <;> rw [e] <;> decide
  have hread : ∀ q, (t.loadUnit q).readback = (s.loadUnit q).readback := fun q => by
    by_cases e : q = p
    · exact e ▸ h.readback
    · rw [h.unit q e]
  refine ⟨fun j hj => ?_, fun q j => ?_, fun q => ?_, fun q r hr hm => ?_, fun c q => ?_, fun c j => ?_⟩
  · by_cases hji : j = i
    · subst hji
      rcases h.after with ⟨-, -, -, ho⟩ | ⟨-, -, hn⟩
      exacts [⟨p, ho⟩, absurd hj hn]
    · rw [h.seg j hji] at hj ⊢
      exact hs.owned j hj
  · by_cases hqp : q = p <;> by_cases hji : j = i
    · subst hqp hji
      rcases h.after with ⟨hu, -, hl, ho⟩ | ⟨hu, -, hn⟩
      · exact ⟨fun _ => ⟨hl, ho⟩, fun _ => hu⟩
      · rw [hu]
        exact ⟨nofun, fun e => absurd e.1 hn⟩
    · subst hqp
      rw [h.seg j hji, ← hs.holds q j]
      refine ⟨fun e => absurd e ?_, fun e => absurd e (hp j hji)⟩
      rcases h.after with ⟨hu, -⟩ | ⟨hu, -⟩ <;> rw [hu]
      · exact fun e => hji (Option.some.inj e).symm
      · exact nofun
    · subst hji
      rw [h.unit q hqp]
      refine ⟨fun e => absurd e (hi q hqp), fun ⟨hl, ho⟩ => ?_⟩
      rcases h.after with ⟨-, -, -, ho'⟩ | ⟨-, -, hn⟩
      exacts [absurd (Option.some.inj (ho.symm.trans ho')) hqp, absurd hl hn]
    · rw [h.unit q hqp, h.seg j hji]
      exact hs.holds q j
  · by_cases hqp : q = p
    · subst hqp
      rcases h.after with ⟨hu, hn, -⟩ | ⟨hu, hn, -⟩
      · rw [hu]
        exact ⟨nofun, fun e => absurd e hn⟩
      · exact ⟨fun _ => hn, fun _ => hu⟩
    · rw [h.unit q hqp]
      exact hs.phase q
  · rw [hread q] at hr
    rw [h.seg r.seg (hquiet q r hr hm)]
    exact hs.live q r hr hm
  · by_cases hqp : q = p
    · exact hqp ▸ h.counts c
    · exact (hs.counts c q).of_core (by rw [h.unit q hqp])
        (fun j hj => by rw [h.seg j fun e => hi q hqp (e ▸ hj)]) fun b hb => .inl ⟨b, h.drain q hqp b hb, rfl⟩
  · by_cases hji : j = i
    · exact hji ▸ h.pages c
    · rw [h.seg j hji]
      exact hs.pages c j

/-! ### The link side -/

/-- The port's own burst in flight is a read burst whose items are to be discarded. -/
def State.Discarding (s : State) (p : Port) : Prop :=
  ∃ b, s.loadBurst p = some b ∧ b.write = false ∧ b.keep = false

/-- The protocol law of one port; while a command acts, a cancelled readback may still be unanswered. -/
structure State.Linked (settled : Prop) (s : State) (p : Port) : Prop where
  unread : (s.port p).unread.isSome ↔ (s.port p).proto = .ready
  readback : (s.loadUnit p).readback.isSome ↔ (s.port p).proto = .executing
  waiting : ∀ r, (s.loadUnit p).readback = some r → r.mark = .cancelledInFlight → s.Discarding p
  answered : settled → ∀ r, (s.loadUnit p).readback = some r → r.mark ≠ .cancelled

theorem protocolLaw_iff (s : State) : s.ProtocolLaw ↔ ∀ p, s.Linked True p := by
  refine forall_congr' fun p => ?_
  constructor
  · rintro ⟨h1, h2, h3⟩
    exact ⟨h1, h2, fun r hr => (h3 r hr).2, fun _ r hr => (h3 r hr).1⟩
  · rintro ⟨h1, h2, h3, h4⟩
    exact ⟨h1, h2, fun r hr => ⟨h4 trivial r hr, h3 r hr⟩⟩

/-- What the link side sees of a port is the same. -/
structure SameLink (s t : State) (p : Port) : Prop where
  proto : (t.port p).proto = (s.port p).proto
  unread : (t.port p).unread = (s.port p).unread
  readback : (t.loadUnit p).readback = (s.loadUnit p).readback
  waiting : s.Discarding p → t.Discarding p

theorem SameLink.trans {s u t : State} {p : Port} (h : SameLink s u p) (k : SameLink u t p) : SameLink s t p :=
  ⟨k.proto.trans h.proto, k.unread.trans h.unread, k.readback.trans h.readback, k.waiting ∘ h.waiting⟩

theorem State.Discarding.congr {s t : State} (hb : t.burst = s.burst) {p : Port} (h : s.Discarding p) :
    t.Discarding p := by
  unfold State.Discarding
  rw [State.loadBurst_congr hb]
  exact h

theorem State.Linked.same {S : Prop} {s t : State} {p : Port} (hs : s.Linked S p) (h : SameLink s t p) :
    t.Linked S p := by
  refine ⟨?_, ?_, fun r hr hm => ?_, fun c r hr => ?_⟩
  · rw [h.unread, h.proto]
    exact hs.unread
  · rw [h.readback, h.proto]
    exact hs.readback
  · rw [h.readback] at hr
    exact h.waiting (hs.waiting r hr hm)
  · rw [h.readback] at hr
    exact hs.answered c r hr

/-- Both sides together. -/
structure State.Laws (counted settled : Prop) (s : State) : Prop where
  load : s.LoadSide counted
  link : ∀ p, s.Linked settled p

/-- Both sides see the same. -/
structure SameLoads (s t : State) : Prop where
  records : SameRecords s t
  link : ∀ p, SameLink s t p

theorem State.Laws.same {C S : Prop} {s t : State} (hs : s.Laws C S) (h : SameLoads s t) : t.Laws C S :=
  ⟨hs.load.same h.records, fun p => (hs.link p).same (h.link p)⟩

end Sys2Proof.Machine
end

section
/-! ## What leaves the laws of loads and ports alone

Everything but the segment commands, the completions of a Load Unit's bursts, responses and resets. -/

namespace Sys2Proof.Machine

theorem SameLoads.trans {s u t : State} (h : SameLoads s u) (k : SameLoads u t) : SameLoads s t :=
  ⟨h.records.trans k.records, fun p => (h.link p).trans (k.link p)⟩

/-- The same, for a step whose end is known before its middle. -/
theorem SameLoads.after {s u t : State} (k : SameLoads u t) (h : SameLoads s u) : SameLoads s t := h.trans k

/-- What can become of the burst in flight: it stays, its items are marked to be discarded, or, with the store free, one goes
into flight that fits the load it is of. -/
def State.BurstFollows (s : State) (o : Option Burst) : Prop :=
  o = s.burst ∨ (∃ b, s.burst = some b ∧ o = some { b with keep := false })
    ∨ s.burst = none ∧ ∀ b p, o = some b → b.requester = .loadUnit p → b.write = true → (s.loadUnit p).Drains b.count

theorem State.BurstFollows.drain {s t : State} (h : s.BurstFollows t.burst) {p : Port} {b : Burst}
    (hb : t.drainInFlight p = some b) :
    (∃ x, s.drainInFlight p = some x ∧ x.count = b.count) ∨ (s.loadUnit p).Drains b.count := by
  obtain ⟨hb, hr, hw⟩ := (t.drainInFlight_eq_some p b).1 hb
  rcases h with e | ⟨x, hx, e⟩ | ⟨-, hd⟩
  · exact .inl ⟨b, (s.drainInFlight_eq_some p b).2 ⟨e.symm.trans hb, hr, hw⟩, rfl⟩
  · obtain rfl : { x with keep := false } = b := Option.some.inj (e.symm.trans hb)
    exact .inl ⟨x, (s.drainInFlight_eq_some p x).2 ⟨hx, hr, hw⟩, rfl⟩
  · exact .inr (hd b p hb hr hw)

theorem State.BurstFollows.waiting {s t : State} (h : s.BurstFollows t.burst) {p : Port} (hp : s.Discarding p) :
    t.Discarding p := by
  obtain ⟨b, hl, hw, hk⟩ := hp
  obtain ⟨hb, hr⟩ := (s.loadBurst_eq_some p b).1 hl
  rcases h with e | ⟨x, hx, e⟩ | ⟨hn, -⟩
  · exact ⟨b, (t.loadBurst_eq_some p b).2 ⟨e.trans hb, hr⟩, hw, hk⟩
  · obtain rfl := Option.some.inj (hx.symm.trans hb)
    exact ⟨_, (t.loadBurst_eq_some p _).2 ⟨e, hr⟩, hw, rfl⟩
  · rw [hn] at hb
    cases hb

/-- Load Units are untouched, segments and ports but for what the laws do not see. -/
theorem SameLoads.of_loads {s t : State} (hl : t.loads = s.loads) (hs : ∀ i, (t.seg i).core = (s.seg i).core)
    (hp : ∀ p, (t.port p).proto = (s.port p).proto ∧ (t.port p).unread = (s.port p).unread)
    (hb : s.BurstFollows t.burst) : SameLoads s t := by
  have hu : ∀ p, t.loadUnit p = s.loadUnit p := fun p => congrArg (fun x : PerPort LoadUnit => x.get p) hl
  exact ⟨⟨hs, fun p => by rw [hu], fun p r hr hm => ⟨r, hu p ▸ hr, rfl, hm⟩, fun p b => hb.drain⟩,
    fun p => ⟨(hp p).1, (hp p).2, by rw [hu], hb.waiting⟩⟩

theorem SameLoads.of_eq {s t : State} (hl : t.loads = s.loads) (hs : t.segs = s.segs) (hp : t.ports = s.ports)
    (hb : t.burst = s.burst) : SameLoads s t := by
  have hseg : ∀ i, t.seg i = s.seg i := fun i => congrArg (fun v : Vector SegRec 256 => v.get i) hs
  have hport : ∀ p, t.port p = s.port p := fun p => congrArg (fun x : PerPort PortRec => x.get p) hp
  exact .of_loads hl (fun i => by rw [hseg]) (fun p => by rw [hport]; exact ⟨rfl, rfl⟩) (.inl hb)

theorem SameLoads.refl (s : State) : SameLoads s s := .of_eq rfl rfl rfl rfl

theorem SameLoads.ite {s t u : State} {q : Prop} [Decidable q] (h : SameLoads s t) (k : SameLoads s u) :
    SameLoads s (if q then t else u) := by
  split
  · exact h
  · exact k

theorem SameLoads.foldl {α : Type} {f : State → α → State} (h : ∀ s x, SameLoads s (f s x)) (xs : List α) (s : State) :
    SameLoads s (xs.foldl f s) := by
  induction xs generalizing s with
  | nil => exact .refl s
  | cons x r ih => exact (h s x).trans (ih _)

/-! ### Ports, segments and channels -/

theorem setPort_sameLoads (s : State) (p : Port) (r : PortRec) (hp : r.proto = (s.port p).proto)
    (hu : r.unread = (s.port p).unread) : SameLoads s (s.setPort p r) := by
  refine .of_loads rfl (fun _ => rfl) (fun q => ?_) (.inl rfl)
  rw [State.setPort_port]
  split
  case isTrue e => exact e ▸ ⟨hp, hu⟩
  case isFalse => exact ⟨rfl, rfl⟩

theorem setSeg_sameLoads (s : State) (i : SegId) (r : SegRec) (h : r.core = (s.seg i).core) :
    SameLoads s (s.setSeg i r) := by
  refine .of_loads rfl (fun j => ?_) (fun _ => ⟨rfl, rfl⟩) (.inl rfl)
  rw [State.setSeg_seg]
  split
  case isTrue e => exact e ▸ h
  case isFalse => rfl

theorem setChan_sameLoads (s : State) (c : ChanId) (k : Chan) : SameLoads s (s.setChan c k) := .of_eq rfl rfl rfl rfl

theorem setTick_sameLoads (s : State) (c : ChanId) (k : TickStatus) : SameLoads s (s.setTick c k) :=
  .of_eq rfl rfl rfl rfl

theorem arb_sameLoads (s : State) (a : Arbiter) : SameLoads s { s with arb := a } := .of_eq rfl rfl rfl rfl

theorem clockOut_sameLoads (s : State) (p : Port) (n : Nat) : SameLoads s (s.clockOut p n) :=
  setPort_sameLoads s p _ rfl rfl

theorem raiseTo_sameLoads (s : State) (p : Port) (src : EventSource) (k : Kind) (d : Detail) :
    SameLoads s (s.raiseTo p src k d) := setPort_sameLoads s p _ rfl rfl

theorem raiseBoth_sameLoads (s : State) (src : EventSource) (k : Kind) : SameLoads s (s.raiseBoth src k) :=
  (raiseTo_sameLoads s _ _ _ _).trans (raiseTo_sameLoads _ _ _ _ _)

theorem raiseFreed_sameLoads (s : State) (i : SegId) (o : Option Port) : SameLoads s (s.raiseFreed i o) := by
  cases o with
  | none => exact .refl s
  | some p => exact raiseTo_sameLoads s p _ _ _

theorem putWork_sameLoads (s : State) (c : ChanId) (w : Work) (h : (s.work c).Steady w) :
    SameLoads s (s.putWork c w) := by
  obtain ⟨-, hburst, hports, hrest⟩ := s.putWork_spec c w
  have hseg : ∀ i, (s.putWork c w).seg i = s.seg i := fun i => (congrArg (fun t : State => t.seg i) hrest :)
  refine .of_loads (congrArg State.loads hrest :) (fun i => by rw [hseg]) (fun p => by rw [hports p]; exact ⟨rfl, rfl⟩) ?_
  rw [hburst]
  rcases h.burst with e | ⟨b, hb, e⟩
  · exact .inl e
  · exact .inr (.inl ⟨b, hb, e⟩)

theorem triggerBy_sameLoads (s : State) (own : Option ChanId) (src : Source) : SameLoads s (s.triggerBy own src) :=
  .foldl (fun t c => putWork_sameLoads t c _ (Work.triggerEvent_steady _ src _)) _ s

theorem trigger_sameLoads (s : State) (src : Source) : SameLoads s (s.trigger src) := triggerBy_sameLoads s none src

theorem reach_sameLoads (s : State) (e : SyncEvent) : SameLoads s (s.reach e) := triggerBy_sameLoads s _ _

theorem deliverLines_sameLoads (s t : State) : SameLoads t (s.deliverLines t) :=
  .foldl (fun u l => trigger_sameLoads u (.syn l)) _ t

theorem noteLines_sameLoads (s : State) (c : ChanId) (t : State) : SameLoads t (s.noteLines c t) :=
  .of_eq rfl rfl rfl rfl

theorem loseAll_sameLoads (s : State) : SameLoads s s.loseAll :=
  .foldl (fun t c => putWork_sameLoads t c _ (Work.loseClock_steady c _)) _ s

/-! ### Grants (R24, R35, R104) -/

/-- A burst granted with the store free. -/
theorem granted_sameLoads {s t : State} (hfree : s.burst = none) (hl : t.loads = s.loads) (hs : t.segs = s.segs)
    (hp : t.ports = s.ports) (h : ∀ b p, t.burst = some b → b.requester = .loadUnit p → b.write = true →
      (s.loadUnit p).Drains b.count) : SameLoads s t := by
  have hseg : ∀ i, t.seg i = s.seg i := fun i => congrArg (fun v : Vector SegRec 256 => v.get i) hs
  have hport : ∀ p, t.port p = s.port p := fun p => congrArg (fun x : PerPort PortRec => x.get p) hp
  exact .of_loads hl (fun i => by rw [hseg]) (fun p => by rw [hport]; exact ⟨rfl, rfl⟩) (.inr (.inr ⟨hfree, h⟩))

theorem grantFetch_sameLoads (s : State) (c : ChanId) (h : s.burst = none) : SameLoads s (s.grantFetch c) := by
  unfold State.grantFetch
  dsimp only
  split
  · exact .refl s
  · split
    · exact .refl s
    · refine granted_sameLoads h rfl rfl rfl fun b p hb hr => ?_
      obtain rfl := Option.some.inj hb
      cases hr

/-- A drain that is asked for writes at least one sample and none that the buffer does not hold (R24). -/
theorem drainBurst_drains {s : State} {p : Port} (h : s.drainRequest p = true) (r : SegRec) :
    (s.loadUnit p).Drains (drainBurst p r (s.loadUnit p)).count := by
  unfold State.drainRequest at h
  simp only [Bool.and_eq_true, decide_eq_true_eq, Bool.not_eq_true', List.isEmpty_eq_false_iff] at h
  obtain ⟨⟨hopen, hbuffer⟩, -⟩ := h
  have hlen := List.length_pos_iff.2 hbuffer
  refine ⟨by rw [hopen]; decide, ?_, ?_⟩ <;> simp only [drainBurst] <;> omega

theorem grantLoad_sameLoads (s : State) (p : Port) (h : s.burst = none) : SameLoads s (s.grantLoad p) := by
  unfold State.grantLoad
  dsimp only
  split
  case isTrue hd =>
    split
    · refine granted_sameLoads h rfl rfl rfl fun b q hb hr _ => ?_
      obtain rfl := Option.some.inj hb
      obtain rfl : p = q := by simpa [drainBurst] using hr
      exact drainBurst_drains hd _
    · exact .refl s
  case isFalse =>
    split
    · refine granted_sameLoads h rfl rfl rfl fun b q hb _ hw => ?_
      obtain rfl := Option.some.inj hb
      cases hw
    · exact .refl s

theorem arbitrate_sameLoads (s : State) : SameLoads s s.arbitrate := by
  unfold State.arbitrate
  split
  · exact .refl s
  · rename_i hb
    split
    · exact .refl s
    · refine .trans ?_ (arb_sameLoads _ _)
      split
      · exact grantFetch_sameLoads s _ hb
      · exact grantLoad_sameLoads s _ hb

/-! ### Output ticks and the clock -/

theorem tickOne_sameLoads (s : State) (c : ChanId) : SameLoads s (s.tickOne c) := by
  unfold State.tickOne
  dsimp only
  refine .trans ?_ (arbitrate_sameLoads _)
  refine .trans ?_ (setTick_sameLoads _ c _)
  refine .trans ?_ (noteLines_sameLoads _ c _)
  refine .trans ?_ (putWork_sameLoads _ c _ (Work.tickEnd_steady _ c _ _))
  exact (putWork_sameLoads s c _ (Work.tickWord_steady _ _ _)).trans (noteLines_sameLoads s c _)

theorem tickChannel_sameLoads (s : State) (c : ChanId) : SameLoads s (s.tickChannel c) :=
  (tickOne_sameLoads s c).trans (.foldl tickOne_sameLoads _ _)

theorem finishTicks_sameLoads (s : State) : SameLoads s s.finishTicks :=
  .foldl (fun t c => .ite (tickOne_sameLoads t c) (.refl t)) _ s

theorem syncEvents_sameLoads (s : State) (l : List SyncEvent) : SameLoads s { s with syncEvents := l } :=
  .of_eq rfl rfl rfl rfl

theorem deliverAll_sameLoads (s : State) : SameLoads s s.deliverAll :=
  (syncEvents_sameLoads s []).trans (.foldl reach_sameLoads _ _)

theorem finishEdge_sameLoads (s : State) : SameLoads s s.finishEdge :=
  (finishTicks_sameLoads s).trans (deliverAll_sameLoads _)

theorem deliverEvent_sameLoads (s : State) (e : SyncEvent) : SameLoads s (s.deliverEvent e) :=
  (syncEvents_sameLoads s _).trans (reach_sameLoads _ e)

theorem judgePin_sameLoads (s : State) (n : Fin 4) (level : Bool) : SameLoads s (s.judgePin n level) := by
  have h : SameLoads s { s with judged := s.judged.set n level } := .of_eq rfl rfl rfl rfl
  exact .ite (.refl s) (.ite (h.trans (trigger_sameLoads _ _)) h)

theorem clocked_sameLoads (s : State) (m : Monitor) (k : Vector TickStatus 8) :
    SameLoads s { s with monitor := m, ticks := k } := .of_eq rfl rfl rfl rfl

theorem clockIsLost_sameLoads (s : State) : SameLoads s s.clockIsLost := by
  refine .trans ?_ (deliverLines_sameLoads _ _)
  refine .trans ?_ (loseAll_sameLoads _)
  refine .trans ?_ (raiseBoth_sameLoads _ _ _)
  exact (finishEdge_sameLoads s).trans (clocked_sameLoads _ _ _)

theorem clockIsBack_sameLoads (s : State) : SameLoads s s.clockIsBack :=
  (clocked_sameLoads s _ _).trans (raiseBoth_sameLoads _ _ _)

theorem refclkPeriod_sameLoads (s : State) : SameLoads s s.refclkPeriod := by
  have h : ∀ m, SameLoads s { s with monitor := m } := fun m => .of_eq rfl rfl rfl rfl
  refine .ite ?_ ?_
  · split
    · exact clockIsLost_sameLoads s
    · exact h _
  · split
    · exact h _
    · exact .ite (.ite ((h _).trans (clockIsBack_sameLoads _)) (h _)) (h _)

/-! ### Claims, edge modes, drivers and Fetchers -/

theorem claimOne_sameLoads (p : Port) (y k : Bool) (s : State) (c : ChanId) : SameLoads s (s.claimOne p y k c) := by
  have h : ∀ r, SameLoads s (s.setClaim c r) := fun r => .of_eq rfl rfl rfl rfl
  unfold State.claimOne
  split
  · exact .refl s
  · exact (h _).trans (raiseTo_sameLoads _ _ _ _ _)
  · exact h _
  · exact h _

theorem releaseOne_sameLoads (p : Port) (s : State) (c : ChanId) : SameLoads s (s.releaseOne p c) :=
  .ite (.of_eq rfl rfl rfl rfl) (.refl s)

theorem writeEdgeMode_sameLoads (s : State) (p : Port) (n : Fin 8) (m : EdgeMode) :
    SameLoads s (s.writeEdgeMode p n m) := by
  have h : SameLoads s { s with modes := s.modes.set n m } := .of_eq rfl rfl rfl rfl
  exact .ite h (h.trans (raiseTo_sameLoads _ _ _ _ _))

theorem drive_sameLoads (s : State) (l : Fin 4) (d : Option (ChanId × MkUnit)) : SameLoads s (s.drive l d) := by
  have h : SameLoads s { s with drivers := s.drivers.set l d } := .of_eq rfl rfl rfl rfl
  exact h.trans (deliverLines_sameLoads _ _)

theorem disturb_sameLoads (s : State) (us : List Upset) : SameLoads s (s.disturb us) := .of_eq rfl rfl rfl rfl

theorem appendFetched_sameLoads (s : State) (c : ChanId) (t : FetchTag) (slots : List Slot) :
    SameLoads s (s.appendFetched c t slots) := by
  unfold State.appendFetched
  dsimp only
  split
  · refine .trans ?_ (raiseBoth_sameLoads _ _ _)
    exact (setChan_sameLoads s c _).trans (setSeg_sameLoads _ _ _ rfl)
  · exact setChan_sameLoads s c _

theorem endPrefill_sameLoads (s : State) (c : ChanId) : SameLoads s (s.endPrefill c) :=
  .ite ((setChan_sameLoads s c _).trans (raiseBoth_sameLoads _ _ _)) (.refl s)

/-- The end of a read burst, whoever asked for it: the store is free, and no load or readback has changed. -/
theorem endRead_sameRecords (s : State) (b : Burst) : SameRecords s (s.endRead b) := by
  obtain ⟨pg, fl, rt, h⟩ := s.endRead_eq b
  rw [h]
  exact ⟨fun _ => rfl, fun _ => rfl, fun p r hr hm => ⟨r, hr, rfl, hm⟩, nofun⟩

/-- The same, when no port waits for the burst. -/
theorem endRead_sameLoads (s : State) (b : Burst) (h : ∀ p, ¬ s.Discarding p) : SameLoads s (s.endRead b) := by
  refine ⟨endRead_sameRecords s b, ?_⟩
  obtain ⟨pg, fl, rt, e⟩ := s.endRead_eq b
  rw [e]
  exact fun p => ⟨rfl, rfl, rfl, fun hp => absurd hp (h p)⟩

theorem fetchDone_sameLoads (s : State) (c : ChanId) (b : Burst) (h : ∀ p, ¬ s.Discarding p) :
    SameLoads s (s.fetchDone c b) := by
  refine .trans ?_ (arbitrate_sameLoads _)
  refine .trans ?_ (endPrefill_sameLoads _ c)
  split
  · exact (endRead_sameLoads s b h).trans (appendFetched_sameLoads _ c _ _)
  · exact endRead_sameLoads s b h

end Sys2Proof.Machine
end

section
/-! ## What the segment commands do to the laws of loads and ports

Loads begin, go on and end (R22, R23, R25 to R28), segments are freed and readbacks cancelled (R19, R30, R31, R37). -/

namespace Sys2Proof.Machine

/-! ### Loads -/

/-- An operation on loads that leaves ports, burst and readbacks alone keeps the link side. -/
theorem SameLink.of_eq {s t : State} {p : Port} (hp : t.ports = s.ports) (hb : t.burst = s.burst)
    (hr : (t.loadUnit p).readback = (s.loadUnit p).readback) : SameLink s t p := by
  have hport : t.port p = s.port p := congrArg (fun x : PerPort PortRec => x.get p) hp
  exact ⟨by rw [hport], by rw [hport], hr, .congr hb⟩

theorem LoadMoved.link {C : Prop} {s t : State} {p : Port} {i : SegId} (h : LoadMoved C s t p i)
    (hp : t.ports = s.ports) (hb : t.burst = s.burst) (q : Port) : SameLink s t q := by
  refine .of_eq hp hb ?_
  by_cases e : q = p
  · exact e ▸ h.readback
  · rw [h.unit q e]

theorem State.Laws.moved {C S : Prop} {s t : State} {p : Port} {i : SegId} (hs : s.Laws C S) (h : LoadMoved C s t p i)
    (hp : t.ports = s.ports) (hb : t.burst = s.burst) : t.Laws C S :=
  ⟨hs.load.moved h, fun q => (hs.link q).same (h.link hp hb q)⟩

/-- A Load Unit with no load has no counts to keep, once its burst is over. -/
theorem State.UnitCounted.of_closed {t : State} {p : Port} {u : LoadUnit} (h : t.loadUnit p = u.closed)
    (hd : t.drainInFlight p = none) : t.UnitCounted p := by
  refine ⟨?_, fun b hb => ?_⟩
  · rw [h]
    exact ⟨⟨rfl, rfl, rfl, rfl⟩, Nat.zero_le _, Nat.zero_le _, nofun⟩
  · rw [hd] at hb
    cases hb

/-- With the buffer empty no write burst of the load is in flight (R24). -/
theorem State.UnitCounted.no_drain {s : State} {p : Port} (h : s.UnitCounted p) (hb : (s.loadUnit p).buffer = []) :
    s.drainInFlight p = none := by
  cases hd : s.drainInFlight p with
  | none => rfl
  | some b =>
    obtain ⟨-, h1, h2⟩ := h.drain b hd
    rw [hb, List.length_nil] at h2
    omega

/-- What the checks of OPEN-LOAD say when they all pass (R22). -/
theorem openCheck_ok {s : State} {p : Port} {i : SegId} {n : Nat} {vis : Byte} {v : Visibility}
    (h : s.openCheck p i n vis = .ok v) :
    (s.loadUnit p).phase = .noLoad ∧ (s.seg i).state = .free ∧ visOf vis = some v ∧ 16 ≤ n ∧ n ≤ 65536
      ∧ pagesFor n ≤ s.freeList.length := by
  unfold State.openCheck at h
  split at h
  · cases h
  rename_i hphase
  split at h
  · cases h
  rename_i hfree
  split at h
  · cases h
  rename_i w hw
  split at h
  · cases h
  rename_i hn
  split at h
  · cases h
  rename_i hspace
  obtain rfl := Except.ok.inj h
  exact ⟨not_not.1 hphase, not_not.1 hfree, hw, by omega, by omega, by omega⟩

theorem openOn_moved {C : Prop} {s : State} {p : Port} {i : SegId} {n : Nat} {vis : Byte} {v : Visibility}
    (label : Option Half) (hs : s.LoadSide C) (h : s.openCheck p i n vis = .ok v) :
    LoadMoved C s (s.openOn p i n v label) p i := by
  obtain ⟨hphase, hfree, -, hlow, hhigh, hspace⟩ := openCheck_ok h
  have hnone := (hs.phase p).2 hphase
  unfold State.openOn
  dsimp only
  obtain ⟨pg, e⟩ := s.takePages_eq (pagesFor n)
  rw [e]
  refine ⟨fun j hj => State.setSeg_seg_ne _ _ hj, fun q hq => State.setLoad_loadUnit_ne _ _ hq, ?_, .inr ⟨hnone, hfree⟩,
    .inl ?_, fun _ _ _ hb => hb, fun c => ?_, fun _ => ?_⟩
  · rw [State.setLoad_loadUnit_self]
  · rw [State.setLoad_loadUnit_self, State.setLoad_seg, State.setSeg_seg_self]
    exact ⟨rfl, nofun, rfl, rfl⟩
  · have hd := (hs.counts c p).drain
    refine ⟨?_, fun b hb => absurd hphase (hd b hb).1⟩
    rw [State.setLoad_loadUnit_self]
    exact ⟨⟨rfl, Nat.zero_le _⟩, Nat.zero_le _, Nat.zero_le _, nofun⟩
  · rw [State.setLoad_seg, State.setSeg_seg_self, SegRec.pagesCounted_loading rfl]
    exact ⟨n, rfl, hlow, hhigh, List.length_take_of_le hspace⟩

/-- A load that ends with its segment freed (R26 to R28); no write burst of it is in flight. -/
theorem endLoad_moved {C : Prop} {s : State} {p : Port} {i : SegId} (hs : s.LoadSide C)
    (hi : (s.loadUnit p).seg = some i) (hd : C → s.drainInFlight p = none) :
    LoadMoved C s (s.endLoad p) p i ∧ (s.endLoad p).ports = s.ports ∧ (s.endLoad p).burst = s.burst := by
  rw [State.endLoad_quiet hi (loadLaw_quiet hs.loadLaw hi)]
  obtain ⟨pg, fl, rt, e⟩ := s.givePages_eq (s.seg i).pages
  rw [e]
  refine ⟨⟨fun j hj => State.setSeg_seg_ne _ _ hj, fun q hq => State.setLoad_loadUnit_ne _ _ hq, ?_, .inl hi, .inr ?_,
    fun _ _ _ hb => hb, fun c => .of_closed (State.setLoad_loadUnit_self _ _ _) (hd c), fun _ => ?_⟩, rfl, rfl⟩
  · rw [State.setLoad_loadUnit_self]
    rfl
  · rw [State.setLoad_loadUnit_self, State.setLoad_seg, State.setSeg_seg_self]
    exact ⟨rfl, rfl, by decide⟩
  · rw [State.setLoad_seg, State.setSeg_seg_self]
    exact SegRec.pagesCounted_of_free rfl

/-- The declared length of a counted load is in range, and the segment has the pages for it. -/
theorem State.LoadSide.declared {C : Prop} {s : State} (hs : s.LoadSide C) (c : C) {p : Port} {i : SegId}
    (hi : (s.loadUnit p).seg = some i) :
    ∃ d, s.declaredOf (s.loadUnit p) = d ∧ (s.seg i).declared.getD 0 = d ∧ 16 ≤ d ∧ d ≤ 65536
      ∧ (s.seg i).pages.length = (d + 255) / 256 := by
  obtain ⟨d, hd, h⟩ := (SegRec.pagesCounted_loading (hs.loading hi)).1 (hs.pages c i)
  exact ⟨d, by rw [State.declaredOf_of_seg hi, hd]; rfl, by rw [hd]; rfl, h⟩

/-- CLOSE-LOAD of an open load whose buffer is empty (R26). -/
theorem closeOn_moved {C : Prop} {s : State} {p : Port} {i : SegId} (hs : s.LoadSide C)
    (hi : (s.loadUnit p).seg = some i) (ho : (s.loadUnit p).phase = .opened) (hb : (s.loadUnit p).buffer = []) :
    LoadMoved C s (s.closeOn p i).1 p i ∧ (s.closeOn p i).1.ports = s.ports ∧ (s.closeOn p i).1.burst = s.burst := by
  have hnd : C → s.drainInFlight p = none := fun c => (hs.counts c p).no_drain hb
  unfold State.closeOn
  dsimp only
  split
  case isTrue hr =>
    refine ⟨⟨fun j hj => State.setSeg_seg_ne _ _ hj, fun q hq => State.setLoad_loadUnit_ne _ _ hq, ?_, .inl hi, .inr ?_,
      fun _ _ _ hb => hb, fun c => .of_closed (State.setLoad_loadUnit_self _ _ _) (hnd c), fun c => ?_⟩, rfl, rfl⟩
    · rw [State.setLoad_loadUnit_self]
      rfl
    · rw [State.setLoad_loadUnit_self, State.setLoad_seg, State.setSeg_seg_self]
      exact ⟨rfl, rfl, nofun⟩
    · obtain ⟨d, -, hd, hrange⟩ := hs.declared c hi
      rw [State.setLoad_seg, State.setSeg_seg_self, SegRec.pagesCounted_readable (.inl rfl), hd]
      exact ⟨d, rfl, hrange⟩
  case isFalse hr =>
    split
    case isTrue =>
      have h := endLoad_moved hs hi hnd
      unfold State.endLoad at h
      rw [hi] at h
      exact h
    case isFalse hlow =>
      obtain ⟨pg, fl, rt, e⟩ := (s.setSeg i { s.seg i with
        state := .ready, length := some (s.loadUnit p).received,
        pages := (s.seg i).pages.take (pagesFor (s.loadUnit p).received) }).givePages_eq
          ((s.seg i).pages.drop (pagesFor (s.loadUnit p).received))
      rw [e]
      refine ⟨⟨fun j hj => State.setSeg_seg_ne _ _ hj, fun q hq => State.setLoad_loadUnit_ne _ _ hq, ?_, .inl hi,
        .inr ?_, fun _ _ _ hb => hb, fun c => .of_closed (State.setLoad_loadUnit_self _ _ _) (hnd c), fun c => ?_⟩,
        rfl, rfl⟩
      · rw [State.setLoad_loadUnit_self]
        rfl
      · rw [State.setLoad_loadUnit_self, State.setLoad_seg]
        refine ⟨rfl, rfl, ?_⟩
        change ((s.setSeg i _).seg i).state ≠ _
        rw [State.setSeg_seg_self]
        exact nofun
      · obtain ⟨d, hdecl, -, -, hhigh, hpages⟩ := hs.declared c hi
        obtain ⟨⟨-, hle⟩, -⟩ := (LoadUnit.counts_opened ho _).1 (hs.counts c p).counts
        change ((s.setSeg i _).seg i).PagesCounted
        rw [State.setSeg_seg_self, SegRec.pagesCounted_readable (.inl rfl)]
        refine ⟨_, rfl, by omega, by omega, ?_⟩
        rw [List.length_take_of_le]
        · rfl
        · rw [hpages, pagesFor]
          omega

/-- What LOAD-DATA can do to a Load Unit: nothing, or samples enter the empty buffer of an open load (R23). -/
theorem loadDataOn_cases (u : LoadUnit) (d : Nat) (samples : List Sample) :
    (loadDataOn u d samples).2 = u
      ∨ u.phase = .opened ∧ u.buffer = [] ∧ u.oversize = false ∧ samples.length ≤ 128
        ∧ (u.received + samples.length ≤ d
              ∧ loadDataOn u d samples = (.ok, { u with buffer := samples, received := u.received + samples.length })
            ∨ d < u.received + samples.length
              ∧ loadDataOn u d samples = (.oversize, { u with
                  buffer := samples.take (d - u.received), received := d, oversize := true })) := by
  unfold loadDataOn
  split
  · exact .inl rfl
  rename_i hphase
  split
  · exact .inl rfl
  rename_i hlen
  split
  · exact .inl rfl
  rename_i hover
  split
  · exact .inl rfl
  rename_i hbusy
  obtain ⟨hna, hb⟩ := not_or.1 hbusy
  have hb := not_not.1 hb
  have ho : u.phase = .opened := by
    cases hp : u.phase with
    | noLoad => exact absurd hp hphase
    | opened => rfl
    | aborting => exact absurd hp hna
  refine .inr ⟨ho, hb, by simpa using hover, by omega, ?_⟩
  rw [hb]
  split
  case isTrue hfit => exact .inl ⟨hfit, rfl⟩
  case isFalse hfit => exact .inr ⟨by omega, rfl⟩

theorem loadDataOn_sameLoad (u : LoadUnit) (d : Nat) (samples : List Sample) :
    u.SameLoad (loadDataOn u d samples).2 := by
  rcases loadDataOn_cases u d samples with e | ⟨-, -, -, -, ⟨-, e⟩ | ⟨-, e⟩⟩ <;> rw [e] <;> exact ⟨rfl, .rfl, rfl⟩

/-- Received samples are counted as far as the declared length goes (R20, R23). -/
theorem loadDataOn_counts {u : LoadUnit} {d : Nat} (hu : u.Counts d) (hd : d ≤ 65536) (samples : List Sample) :
    (loadDataOn u d samples).2.Counts d := by
  rcases loadDataOn_cases u d samples with e | ⟨ho, hb, hover, hlen, ⟨hfit, e⟩ | ⟨hfit, e⟩⟩ <;> rw [e]
  · exact hu
  all_goals
    obtain ⟨⟨hcount, hle⟩, -⟩ := (LoadUnit.counts_opened ho d).1 hu
    rw [hb, List.length_nil] at hcount
    refine (LoadUnit.counts_opened ?_ d).2 ⟨⟨?_, ?_⟩, ?_, ?_, ?_⟩ <;> dsimp only
  · exact ho
  · omega
  · exact hfit
  · omega
  · exact hlen
  · simp [hover]
  · exact ho
  · rw [List.length_take]
    omega
  · exact le_rfl
  · exact hd
  · rw [List.length_take]
    omega
  · exact fun _ => rfl

/-- LOAD-DATA (R23). -/
theorem loadData_loadSide {C : Prop} {s : State} (hs : s.LoadSide C) (p : Port) (samples : List Sample) :
    (s.setLoad p (loadDataOn (s.loadUnit p) (s.declaredOf (s.loadUnit p)) samples).2).LoadSide C := by
  refine hs.setUnit (fun _ => rfl) (fun q => s.setLoad_loadUnit p q _) (loadDataOn_sameLoad _ _ _) (fun _ _ _ hd => hd)
    fun c => ⟨?_, fun b hd => ?_⟩
  · refine loadDataOn_counts (hs.counts c p).counts ?_ samples
    cases hi : (s.loadUnit p).seg with
    | none => simp [State.declaredOf, hi]
    | some i =>
      obtain ⟨d, hdecl, -, -, hhigh, -⟩ := hs.declared c hi
      exact hdecl ▸ hhigh
  · have hd : s.drainInFlight p = some b := hd
    rcases loadDataOn_cases (s.loadUnit p) (s.declaredOf (s.loadUnit p)) samples with e | ⟨-, hb, -⟩
    · rw [e]
      exact (hs.counts c p).drain b hd
    · rw [(hs.counts c p).no_drain hb] at hd
      cases hd

theorem loadData_laws {C S : Prop} {s : State} (hs : s.Laws C S) (p : Port) (samples : List Sample) :
    (s.setLoad p (loadDataOn (s.loadUnit p) (s.declaredOf (s.loadUnit p)) samples).2).Laws C S := by
  refine ⟨loadData_loadSide hs.load p samples, fun q => (hs.link q).same (.of_eq rfl rfl ?_)⟩
  rw [State.setLoad_loadUnit]
  split
  case isTrue e => rw [e, (loadDataOn_sameLoad _ _ _).readback]
  case isFalse => rfl

/-- The Load Unit of an aborted load that waits for its write burst of n samples (R27). -/
def LoadUnit.aborted (u : LoadUnit) (n : Nat) : LoadUnit := { u with phase := .aborting, buffer := u.buffer.take n }

theorem LoadUnit.aborted_counts {u : LoadUnit} {d : Nat} (ho : u.phase = .opened) (hu : u.Counts d) (n : Nat) :
    (u.aborted n).Counts d := by
  obtain ⟨⟨hcount, hle⟩, hhigh, hlen, hover⟩ := (LoadUnit.counts_opened ho d).1 hu
  refine (LoadUnit.counts_aborting rfl d).2 ⟨⟨?_, hle⟩, hhigh, ?_, hover⟩ <;>
    simp only [LoadUnit.aborted, List.length_take] <;> omega

theorem LoadUnit.aborted_drains {u : LoadUnit} {n : Nat} (hu : u.Drains n) : (u.aborted n).Drains n := by
  obtain ⟨-, h1, h2⟩ := hu
  refine ⟨nofun, h1, ?_⟩
  simp only [LoadUnit.aborted, List.length_take]
  omega

/-- The abort of an open load (R27): the load ends, or waits for its write burst with that burst's samples in the buffer. -/
theorem abortOpen_spec {C : Prop} {s : State} {p : Port} (hs : s.LoadSide C) (ho : (s.loadUnit p).phase = .opened) :
    (s.abortOpen p).LoadSide C ∧ ∀ q, SameLink s (s.abortOpen p) q := by
  obtain ⟨i, hi⟩ := loadLaw_seg hs.loadLaw (p := p) (by rw [ho]; decide)
  obtain ⟨a, ha⟩ : ∃ a, (if s.drainRequest p then s.setPassOver p 0 else s) = { s with arb := a } := by
    split
    · exact ⟨_, rfl⟩
    · exact ⟨s.arb, rfl⟩
  have hw := arb_sameLoads s a
  unfold State.abortOpen
  rw [ha]
  cases hd : s.drainInFlight p with
  | none =>
    obtain ⟨hmoved, hports, hburst⟩ := endLoad_moved (s := { s with arb := a }) (hs.same hw.records) hi fun _ => hd
    exact ⟨(hs.same hw.records).moved hmoved, fun q => (hw.link q).trans (hmoved.link hports hburst q)⟩
  | some b =>
    change State.LoadSide C (State.setLoad { s with arb := a } p ((s.loadUnit p).aborted b.count)) ∧ _
    have hunit := State.setLoad_loadUnit { s with arb := a } p (u := (s.loadUnit p).aborted b.count)
    refine ⟨hs.setUnit (fun _ => rfl) hunit ⟨rfl, by rw [ho]; exact ⟨nofun, nofun⟩, rfl⟩ (fun _ _ _ hx => hx)
      fun c => ⟨LoadUnit.aborted_counts ho (hs.counts c p).counts b.count, fun x hx => ?_⟩, fun q => .of_eq rfl rfl ?_⟩
    · obtain rfl := Option.some.inj (hd.symm.trans hx)
      exact LoadUnit.aborted_drains ((hs.counts c p).drain b hd)
    · refine (congrArg LoadUnit.readback (hunit q)).trans ?_
      split
      case isTrue e => rw [e]; rfl
      case isFalse => rfl

/-- The Load Unit whose buffer a write burst of n samples has left (R25). -/
def LoadUnit.drained (u : LoadUnit) (n : Nat) : LoadUnit := { u with buffer := u.buffer.drop n, wpos := u.wpos + n }

theorem LoadUnit.drained_counts {u : LoadUnit} {d n : Nat} (hu : u.Counts d) (hn : u.Drains n) :
    (u.drained n).Counts d := by
  obtain ⟨hphase, -, hfits⟩ := hn
  cases hp : u.phase with
  | noLoad => exact absurd hp hphase
  | opened =>
    obtain ⟨⟨hcount, hle⟩, hhigh, hlen, hover⟩ := (LoadUnit.counts_opened hp d).1 hu
    refine (LoadUnit.counts_opened (u := u.drained n) hp d).2 ⟨⟨?_, hle⟩, hhigh, ?_, hover⟩ <;>
      simp only [LoadUnit.drained, List.length_drop] <;> omega
  | aborting =>
    obtain ⟨⟨hcount, hle⟩, hhigh, hlen, hover⟩ := (LoadUnit.counts_aborting hp d).1 hu
    refine (LoadUnit.counts_aborting (u := u.drained n) hp d).2 ⟨⟨?_, hle⟩, hhigh, ?_, hover⟩ <;>
      simp only [LoadUnit.drained, List.length_drop] <;> omega

theorem drained_loadSide {C : Prop} {s : State} {p : Port} {b : Burst} (hs : s.LoadSide C)
    (hb : s.drainInFlight p = some b) : (s.drained p b).LoadSide C :=
  hs.setUnit (v := (s.loadUnit p).drained b.count) (fun _ => rfl) (fun _ => PerPort.get_set _ _ _ _) ⟨rfl, .rfl, rfl⟩
    nofun fun c => ⟨LoadUnit.drained_counts (hs.counts c p).counts ((hs.counts c p).drain b hb), nofun⟩

/-- No port waits for a write burst. -/
theorem State.not_discarding {s : State} {b : Burst} (hb : s.burst = some b)
    (h : ∀ p, b.requester = .loadUnit p → b.write = true ∨ b.keep = true) (p : Port) : ¬ s.Discarding p := by
  rintro ⟨x, hx, hw, hk⟩
  obtain ⟨hxb, hr⟩ := (s.loadBurst_eq_some p x).1 hx
  obtain rfl := Option.some.inj (hb.symm.trans hxb)
  rcases h p hr with e | e
  · rw [hw] at e
    cases e
  · rw [hk] at e
    cases e

theorem drainDone_laws {C S : Prop} {s : State} {p : Port} {b : Burst} (hs : s.Laws C S)
    (hb : s.drainInFlight p = some b) : (s.drainDone p b).Laws C S := by
  obtain ⟨hburst, hreq, hw⟩ := (s.drainInFlight_eq_some p b).1 hb
  have hload := drained_loadSide hs.load hb
  have hlaws : (s.drained p b).Laws C S := ⟨hload, fun q => (hs.link q).same ⟨rfl, rfl, s.drained_readback p q b,
    fun hd => absurd hd (State.not_discarding hburst (fun _ _ => .inl hw) q)⟩⟩
  rw [State.drainDone_eq]
  refine State.Laws.same ?_ (arbitrate_sameLoads _)
  split
  case isTrue ha =>
    obtain ⟨i, hi⟩ := loadLaw_seg hs.load.loadLaw (p := p) (by rw [ha]; decide)
    obtain ⟨hmoved, hports, hburst⟩ :=
      endLoad_moved hload (p := p) (i := i) (by rw [State.drained_loadUnit]; exact hi) fun _ => rfl
    exact hlaws.moved hmoved hports hburst
  case isFalse => exact hlaws

end Sys2Proof.Machine
end

section
/-! ## Freed segments, cancelled readbacks and responses in the laws of loads and ports (R19, R30, R31, R37, R168 to R170) -/

namespace Sys2Proof.Machine

/-- The law of a port at rest holds of it while a command acts. -/
theorem State.Linked.pending {S : Prop} {s : State} {p : Port} (h : s.Linked S p) : s.Linked False p :=
  ⟨h.unread, h.readback, h.waiting, False.elim⟩

theorem State.Laws.pending {C S : Prop} {s : State} (h : s.Laws C S) : s.Laws C False :=
  ⟨h.load, fun p => (h.link p).pending⟩

/-! ### Segments freed and doomed -/

/-- Segment i, LOADING neither before nor after, takes another record; no load and no readback of another segment changes. -/
structure SegReplaced (counted : Prop) (s t : State) (i : SegId) : Prop where
  before : (s.seg i).state ≠ .loading
  after : (t.seg i).state ≠ .loading
  seg : ∀ j, j ≠ i → t.seg j = s.seg j
  unit : ∀ p, (t.loadUnit p).core = (s.loadUnit p).core
  live : ∀ p r, (t.loadUnit p).readback = some r → r.mark = .live →
    (s.loadUnit p).readback = some r ∧ (r.seg = i → (t.seg i).state = .ready ∨ (t.seg i).state = .doomed)
  burst : s.BurstFollows t.burst
  pages : counted → (t.seg i).PagesCounted

theorem State.LoadSide.replaced {C : Prop} {s t : State} {i : SegId} (hs : s.LoadSide C) (h : SegReplaced C s t i) :
    t.LoadSide C := by
  have hunit := fun p => (LoadUnit.core_eq_iff _ _).1 (h.unit p)
  have hseg : ∀ p, (t.loadUnit p).seg = (s.loadUnit p).seg := fun p => (hunit p).2.1
  have hphase : ∀ p, (t.loadUnit p).phase = (s.loadUnit p).phase := fun p => (hunit p).1
  have hne : ∀ p, (s.loadUnit p).seg ≠ some i := fun p e => h.before (hs.loading e)
  refine ⟨fun j hj => ?_, fun p j => ?_, fun p => ?_, fun p r hr hm => ?_, fun c p => ?_, fun c j => ?_⟩
  · by_cases hji : j = i
    · exact absurd (hji ▸ hj) h.after
    · rw [h.seg j hji] at hj ⊢
      exact hs.owned j hj
  · rw [hseg]
    by_cases hji : j = i
    · rw [hji]
      exact ⟨fun e => absurd e (hne p), fun e => absurd e.1 h.after⟩
    · rw [h.seg j hji]
      exact hs.holds p j
  · rw [hseg, hphase]
    exact hs.phase p
  · obtain ⟨hold, hi⟩ := h.live p r hr hm
    by_cases hri : r.seg = i
    · rw [hri]
      exact hi hri
    · rw [h.seg _ hri]
      exact hs.live p r hold hm
  · exact (hs.counts c p).of_core (h.unit p) (fun j hj => by rw [h.seg j fun e => hne p (e ▸ hj)]) fun b => h.burst.drain
  · by_cases hji : j = i
    · exact hji ▸ h.pages c
    · rw [h.seg j hji]
      exact hs.pages c j

/-- The readback of a Load Unit after a segment's freeing: it was under way on the segment, or it is as it was. -/
theorem State.unitFreed_readback (s : State) (i : SegId) (p : Port) :
    (∃ r, (s.loadUnit p).readback = some r ∧ r.seg = i ∧ r.mark = .live
        ∧ (s.unitFreed i p).readback = some { r with mark := if s.readInFlight p then .cancelledInFlight else .cancelled })
      ∨ (∀ r, (s.loadUnit p).readback = some r → ¬ (r.seg = i ∧ r.mark = .live))
        ∧ (s.unitFreed i p).readback = (s.loadUnit p).readback := by
  unfold State.unitFreed
  cases hr : (s.loadUnit p).readback with
  | none => exact .inr ⟨nofun, hr⟩
  | some r =>
    dsimp only
    split
    case isTrue h => exact .inl ⟨r, rfl, h.1, h.2, rfl⟩
    case isFalse h =>
      refine .inr ⟨fun x hx => ?_, hr⟩
      obtain rfl := Option.some.inj hx
      exact h

theorem State.unitFreed_core (s : State) (i : SegId) (p : Port) : (s.unitFreed i p).core = (s.loadUnit p).core := by
  unfold State.unitFreed
  cases hr : (s.loadUnit p).readback with
  | none => rfl
  | some r =>
    dsimp only
    split <;> rfl

theorem State.freeSegment_loadUnit (s : State) (i : SegId) (p : Port) : (s.freeSegment i).loadUnit p = s.unitFreed i p := by
  rw [s.freeSegment_spec i]
  cases p <;> rfl

theorem State.freeSegment_follows (s : State) (i : SegId) : s.BurstFollows (s.freeSegment i).burst := by
  rw [s.freeSegment_spec i]
  cases hb : s.burst with
  | none => exact .inl hb.symm
  | some b =>
    cases hr : b.requester with
    | fetcher c => exact .inl (by simp [hb, hr])
    | loadUnit p =>
      by_cases h : s.reads i p = true ∧ b.write = false
      · exact .inr (.inl ⟨b, hb, by simp [hr, h]⟩)
      · exact .inl (by simp [hb, hr, h])

/-- The burst of a readback that waits for it is one whose items are to be discarded (R37). -/
theorem State.freeSegment_discarding {s : State} {i : SegId} {p : Port} {r : Readback}
    (hr : (s.loadUnit p).readback = some r) (hi : r.seg = i) (hm : r.mark = .live) (hf : s.readInFlight p = true) :
    (s.freeSegment i).Discarding p := by
  have hreads : s.reads i p = true := by simp [State.reads, hr, hi, hm]
  unfold State.readInFlight at hf
  cases hl : s.loadBurst p with
  | none =>
    rw [hl] at hf
    cases hf
  | some b =>
    rw [hl] at hf
    obtain ⟨hw, -⟩ := Bool.and_eq_true_iff.1 hf
    have hw : b.write = false := Bool.not_eq_true' _ ▸ hw
    obtain ⟨hb, hreq⟩ := (s.loadBurst_eq_some p b).1 hl
    refine ⟨{ b with keep := false }, (State.loadBurst_eq_some _ p _).2 ⟨?_, hreq⟩, hw, rfl⟩
    rw [s.freeSegment_spec i]
    simp [hb, hreq, hreads, hw]

/-- A freed segment; readbacks of it are cancelled and not yet answered. -/
theorem freeSegment_laws {C S : Prop} {s : State} {i : SegId} (hs : s.Laws C S) (hi : (s.seg i).state ≠ .loading) :
    (s.freeSegment i).Laws C False := by
  have hself : (s.freeSegment i).seg i = .freed := by simp
  refine ⟨hs.load.replaced ⟨hi, by rw [hself]; decide, fun j hj => by simp [hj], fun p => ?_, fun p r hr hm => ?_,
    s.freeSegment_follows i, fun _ => by rw [hself]; exact SegRec.pagesCounted_of_free rfl⟩, fun p => ?_⟩
  · rw [s.freeSegment_loadUnit]
    exact s.unitFreed_core i p
  · rw [s.freeSegment_loadUnit] at hr
    rcases s.unitFreed_readback i p with ⟨x, -, -, -, he⟩ | ⟨hn, he⟩ <;> rw [he] at hr
    · rw [← Option.some.inj hr] at hm
      dsimp only at hm
      split at hm <;> cases hm
    · exact ⟨hr, fun e => absurd ⟨e, hm⟩ (hn r hr)⟩
  · have hport : (s.freeSegment i).port p = s.port p :=
      congrArg (fun x : PerPort PortRec => x.get p) (s.freeSegment_ports i)
    have hold := hs.link p
    rcases s.unitFreed_readback i p with ⟨x, hx, hxi, hxm, he⟩ | ⟨-, he⟩
    · refine ⟨by rw [hport]; exact hold.unread, ?_, fun r hr hm => ?_, False.elim⟩
      · rw [hport, s.freeSegment_loadUnit, he, ← hold.readback, hx]
        rfl
      · rw [s.freeSegment_loadUnit, he] at hr
        obtain rfl := Option.some.inj hr
        cases hf : s.readInFlight p with
        | true => exact State.freeSegment_discarding hx hxi hxm hf
        | false => simp [hf] at hm
    · exact State.Linked.pending (hold.same ⟨by rw [hport], by rw [hport], by rw [s.freeSegment_loadUnit, he],
        (s.freeSegment_follows i).waiting⟩)

/-- A READY segment deleted while entries name it (R30). -/
theorem doom_laws {C S : Prop} {s : State} {i : SegId} (hs : s.Laws C S) (hi : (s.seg i).state = .ready) :
    (s.setSeg i { s.seg i with state := .doomed }).Laws C S := by
  have hself := s.setSeg_seg_self i { s.seg i with state := .doomed }
  refine ⟨hs.load.replaced ⟨by rw [hi]; decide, by rw [hself]; exact nofun, fun j hj => State.setSeg_seg_ne _ _ hj, fun _ => rfl,
    fun p r hr _ => ⟨hr, fun _ => .inr (by rw [hself])⟩, .inl rfl, fun c => ?_⟩, fun p => (hs.link p).same ⟨rfl, rfl, rfl, id⟩⟩
  rw [hself]
  exact (SegRec.pagesCounted_readable (.inr rfl)).2 ((SegRec.pagesCounted_readable (.inl hi)).1 (hs.load.pages c i))

/-! ### Responses -/

/-- A port's record replaced: its response and its state agree, and it executes only if it did. -/
theorem setPort_laws {C S : Prop} {s : State} {p : Port} {r : PortRec} (hs : s.Laws C S)
    (hu : r.unread.isSome ↔ r.proto = .ready) (he : r.proto = .executing ↔ (s.port p).proto = .executing) :
    (s.setPort p r).Laws C S := by
  refine ⟨hs.load.same ⟨fun _ => rfl, fun _ => rfl, fun q x hx hm => ⟨x, hx, rfl, hm⟩, fun q b hb => .inl ⟨b, hb, rfl⟩⟩,
    fun q => ?_⟩
  by_cases hq : q = p
  · subst hq
    have hself := s.setPort_port_self q r
    have hold := hs.link q
    refine ⟨by rw [hself]; exact hu, ?_, hold.waiting, hold.answered⟩
    rw [hself, he]
    exact hold.readback
  · have hport := s.setPort_port_ne r hq
    exact (hs.link q).same ⟨by rw [hport], by rw [hport], rfl, id⟩

/-- The laws hold and port p, in IDLE, takes a command. -/
def State.Taking (counted settled : Prop) (p : Port) (s : State) : Prop :=
  s.Laws counted settled ∧ (s.port p).proto = .idle

theorem State.Taking.respond {C S : Prop} {p : Port} {s : State} (h : s.Taking C S p) (e : Byte) (st : Status)
    (pl : List Byte) : (s.respond p e st pl).Laws C S := by
  obtain ⟨hlaws, hidle⟩ := h
  refine setPort_laws hlaws (by simp) ?_
  rw [hidle]
  exact ⟨nofun, nofun⟩

theorem State.Taking.same {C S : Prop} {p : Port} {s t : State} (h : s.Taking C S p) (k : SameLoads s t) :
    t.Taking C S p := ⟨h.1.same k, (k.link p).proto.trans h.2⟩

theorem State.Taking.pending {C S : Prop} {p : Port} {s : State} (h : s.Taking C S p) : s.Taking C False p :=
  ⟨h.1.pending, h.2⟩

/-- A frame on a port (R164, R168, R169): what its command keeps, the whole event keeps. -/
theorem onPort_laws {C : Prop} {p : Port} {n : Nat} {s : State} {act : State → State} (hs : s.Laws C True)
    (h : ∀ u, u.Taking C True p → (act u).Laws C True) : (onPort p n s act).Laws C True := by
  have hclock := hs.same (clockOut_sameLoads s p n)
  by_cases hheld : s.resetHeld = true ∨ (s.port p).prstHeld = true
  · rw [onPort_held n act hheld]
    exact hs
  obtain ⟨hreset, hprst⟩ := not_or.1 hheld
  have hreset := Bool.eq_false_iff.2 hreset
  have hprst := Bool.eq_false_iff.2 hprst
  by_cases hexec : (s.port p).proto = .executing
  · rw [onPort_executing n act hreset hprst hexec]
    exact hclock.same (setPort_sameLoads _ p _ rfl rfl)
  rw [onPort_listening n act ⟨hreset, hprst, hexec⟩]
  refine h _ ?_
  unfold State.opened
  split
  case isTrue hready =>
    refine ⟨setPort_laws hclock (by simp) ?_, by rw [State.setPort_port_self]⟩
    rw [hready]
    exact ⟨nofun, nofun⟩
  case isFalse hready =>
    refine ⟨hclock, ?_⟩
    rw [State.clockOut_port] at hready ⊢
    cases hp : (s.port p).proto with
    | idle => rfl
    | executing => exact absurd hp hexec
    | ready => exact absurd hp hready

/-! ### Readbacks answered (R36, R37) -/

/-- The answer to port p's readback: whatever the port was in, it is in RESPONSE-READY without a readback. -/
theorem readbackAnswered_spec {C S : Prop} {s : State} (hs : s.LoadSide C) (p : Port) (st : Status) (pl : List Byte) :
    (s.readbackAnswered p st pl).LoadSide C ∧ (s.readbackAnswered p st pl).Linked S p
      ∧ ∀ q, q ≠ p → SameLink s (s.readbackAnswered p st pl) q := by
  have hunit : ∀ q, (s.readbackAnswered p st pl).loadUnit q =
      if q = p then { s.loadUnit p with readback := none } else s.loadUnit q := fun q => PerPort.get_set _ _ _ _
  have hself := (hunit p).trans (if_pos rfl)
  refine ⟨hs.same ⟨fun _ => rfl, fun q => ?_, fun q r hr hm => ?_, fun q b hb => .inl ⟨b, hb, rfl⟩⟩, ⟨?_, ?_, ?_, ?_⟩,
    fun q hq => ?_⟩
  · rw [hunit]
    split
    case isTrue e => rw [e]; rfl
    case isFalse => rfl
  · rw [hunit] at hr
    split at hr
    · cases hr
    · exact ⟨r, hr, rfl, hm⟩
  · simp [State.readbackAnswered]
  · rw [hself]
    simp [State.readbackAnswered]
  · rw [hself]
    exact nofun
  · rw [hself]
    exact fun _ => nofun
  · have hport : (s.readbackAnswered p st pl).port q = s.port q := (PerPort.get_set _ _ _ _).trans (if_neg hq)
    exact ⟨by rw [hport], by rw [hport], by rw [hunit, if_neg hq], .congr rfl⟩

/-- The answer to port p's readback, if it is cancelled with no burst in flight. -/
theorem answerCancelled_spec {C : Prop} {s : State} (hs : s.Laws C False) (p : Port) :
    (s.answerCancelled p).LoadSide C ∧ (s.answerCancelled p).Linked True p
      ∧ ∀ q, q ≠ p → SameLink s (s.answerCancelled p) q := by
  have hstay : (∀ r, (s.loadUnit p).readback = some r → r.mark ≠ .cancelled) →
      s.LoadSide C ∧ s.Linked True p ∧ ∀ q, q ≠ p → SameLink s s q := fun h =>
    ⟨hs.load, ⟨(hs.link p).unread, (hs.link p).readback, (hs.link p).waiting, fun _ => h⟩, fun _ _ => ⟨rfl, rfl, rfl, id⟩⟩
  cases hr : (s.loadUnit p).readback with
  | none =>
    rw [State.answerCancelled_of_none hr]
    exact hstay (by rw [hr]; exact nofun)
  | some r =>
    rw [State.answerCancelled_of_readback hr]
    split
    case isTrue => exact readbackAnswered_spec hs.load p _ _
    case isFalse hm =>
      refine hstay fun x hx => ?_
      rw [← Option.some.inj (hr.symm.trans hx)]
      exact hm

/-- With the cancelled readbacks answered the laws hold as between events. -/
theorem settleCancelled_laws {C : Prop} {s : State} (hs : s.Laws C False) : s.settleCancelled.Laws C True := by
  obtain ⟨hload, ha, hb⟩ := answerCancelled_spec hs .a
  have hmid : (s.answerCancelled .a).Laws C False := ⟨hload, fun q => by
    by_cases hq : q = .a
    · exact hq ▸ ha.pending
    · exact (hs.link q).same (hb q hq)⟩
  obtain ⟨hload', hb', ha'⟩ := answerCancelled_spec hmid .b
  refine ⟨hload', fun q => ?_⟩
  cases q with
  | a => exact ha.same (ha' .a (by decide))
  | b => exact hb'

/-! ### Segments released (R47, R49, R50, R52) -/

theorem freeSegment_taking {C S : Prop} {p : Port} {s : State} {i : SegId} (hs : s.Taking C S p)
    (hi : (s.seg i).state ≠ .loading) : (s.freeSegment i).Taking C False p := by
  obtain ⟨hlaws, hidle⟩ := hs
  refine ⟨freeSegment_laws hlaws hi, ?_⟩
  have hport : (s.freeSegment i).port p = s.port p := congrArg (fun x : PerPort PortRec => x.get p) (s.freeSegment_ports i)
  rw [hport, hidle]

theorem releaseSegment_taking {C : Prop} {p : Port} {s : State} (hs : s.Taking C False p) (i : SegId) :
    (s.releaseSegment i).Taking C False p := by
  unfold State.releaseSegment
  dsimp only
  split
  case isTrue h =>
    have hraise := raiseFreed_sameLoads s i (s.seg i).owner
    refine freeSegment_taking (hs.same hraise) ?_
    obtain ⟨hstate, -⟩ := (SegRec.core_eq_iff _ _).1 (hraise.records.seg i)
    rw [hstate, h.1]
    decide
  case isFalse => exact hs.same (setSeg_sameLoads s i _ rfl)

theorem releaseAll_taking {C : Prop} {p : Port} {s : State} (hs : s.Taking C False p) (l : List Entry) :
    (s.releaseAll l).1.Taking C False p := by
  induction l generalizing s with
  | nil => exact hs
  | cons e r ih => exact ih (releaseSegment_taking hs e.seg)

theorem putOn_taking {C : Prop} {p : Port} {s : State} (hs : s.Taking C False p) (c : ChanId) (index : Nat) (e : Entry) :
    (s.putOn c index e).Taking C False p := by
  have hbind : ∀ k : Chan, ((s.setChan c k).bindSegment e.seg).Taking C False p := fun k =>
    hs.same ((setChan_sameLoads s c k).trans (setSeg_sameLoads _ e.seg _ rfl))
  unfold State.putOn
  dsimp only
  split
  · exact hbind _
  · exact releaseSegment_taking (hbind _) _

theorem trimOn_taking {C : Prop} {p : Port} {s : State} (hs : s.Taking C False p) (c : ChanId) (m : Nat) :
    (s.trimOn c m).1.Taking C False p := releaseAll_taking (hs.same (setChan_sameLoads s c _)) _

theorem deleteOn_taking {C : Prop} {p : Port} {s t : State} {i : SegId} (hs : s.Taking C True p)
    (h : s.deleteOn p i = .ok t) : t.Taking C False p := by
  unfold State.deleteOn at h
  dsimp only at h
  cases hst : (s.seg i).state with
  | free => simp [hst] at h
  | loading =>
    simp only [hst] at h
    split at h <;> cases h
  | doomed =>
    simp only [hst] at h
    split at h
    · exact Except.ok.inj h ▸ hs.pending
    · cases h
  | ready =>
    simp only [hst] at h
    split at h
    · split at h
      · exact Except.ok.inj h ▸ freeSegment_taking hs (by rw [hst]; decide)
      · exact Except.ok.inj h ▸ State.Taking.pending ⟨doom_laws hs.1 hst, hs.2⟩
    · cases h

end Sys2Proof.Machine
end

section
/-! ## Readback bursts and resets in the laws of loads and ports (R29, R33 to R37, R161) -/

namespace Sys2Proof.Machine

/-- The answer to port p's readback, when the other port's law holds. -/
theorem readbackAnswered_laws {C S : Prop} {s : State} {p : Port} (hs : s.LoadSide C)
    (h : ∀ q, q ≠ p → s.Linked S q) (st : Status) (pl : List Byte) : (s.readbackAnswered p st pl).Laws C S := by
  obtain ⟨hload, hself, hsame⟩ := readbackAnswered_spec (S := S) hs p st pl
  refine ⟨hload, fun q => ?_⟩
  by_cases hq : q = p
  · rw [hq]
    exact hself
  · exact (h q hq).same (hsame q hq)

/-! ### READ-SEGMENT and its bursts -/

/-- What the checks of READ-SEGMENT say when they all pass (R33). -/
theorem readCheck_ok {s : State} {p : Port} {i : SegId} {offset count : Nat} {rb : Readback}
    (h : s.readCheck p i offset count = .ok rb) :
    ((s.seg i).state = .ready ∨ (s.seg i).state = .doomed) ∧ rb.seg = i ∧ rb.mark = .live := by
  unfold State.readCheck at h
  dsimp only at h
  split at h
  · cases h
  split at h
  · cases h
  rename_i hfree
  split at h
  · cases h
  split at h
  · cases h
  rename_i hloading
  split at h
  · cases h
  obtain rfl := Except.ok.inj h
  refine ⟨?_, rfl, rfl⟩
  cases hst : (s.seg i).state with
  | free => exact absurd hst hfree
  | loading => exact absurd hst hloading
  | ready => exact .inl rfl
  | doomed => exact .inr rfl

/-- READ-SEGMENT taken (R33, R167): the readback is under way and the port executes. -/
theorem readSegment_laws {C S : Prop} {p : Port} {s : State} {rb : Readback} (hs : s.Taking C S p)
    (hseg : (s.seg rb.seg).state = .ready ∨ (s.seg rb.seg).state = .doomed) (hm : rb.mark = .live) :
    ((s.setLoad p { s.loadUnit p with readback := some rb }).setPort p { s.port p with proto := .executing }).Laws C S := by
  obtain ⟨⟨hload, hlink⟩, hidle⟩ := hs
  generalize ht : State.setPort _ p _ = t
  have hunit : ∀ q, t.loadUnit q = if q = p then { s.loadUnit p with readback := some rb } else s.loadUnit q := fun q => by
    rw [← ht]
    exact PerPort.get_set _ _ _ _
  have hcore : ∀ q, (t.loadUnit q).core = (s.loadUnit q).core := fun q => by
    rw [hunit]
    split
    case isTrue e => rw [e]; rfl
    case isFalse => rfl
  have hrest : ∀ i, t.seg i = s.seg i := fun _ => by rw [← ht]; rfl
  have hburst : t.burst = s.burst := by rw [← ht]; rfl
  refine ⟨hload.kept ⟨fun i => by rw [hrest], fun q => ?_, fun q => ?_, fun q r hr hm => ?_, fun c q => ?_⟩, fun q => ?_⟩
  · exact ((LoadUnit.core_eq_iff _ _).1 (hcore q)).2.1
  · rw [((LoadUnit.core_eq_iff _ _).1 (hcore q)).1]
  · rw [hunit] at hr
    split at hr
    · exact Option.some.inj hr ▸ hseg
    · exact hload.live q r hr hm
  · refine (hload.counts c q).of_core (hcore q) (fun i _ => by rw [hrest]) fun b hb => .inl ⟨b, ?_, rfl⟩
    rw [← State.drainInFlight_congr hburst]
    exact hb
  · by_cases hq : q = p
    · have hself : t.loadUnit q = { s.loadUnit q with readback := some rb } := by rw [hunit, if_pos hq, hq]
      have hport : t.port q = { s.port q with proto := .executing } := by
        rw [← ht, hq]
        exact PerPort.get_set_self _ _ _
      have hunread := (hlink q).unread
      rw [hq, hidle] at hunread
      refine ⟨?_, ?_, fun r hr hx => ?_, fun _ r hr => ?_⟩
      · rw [hport, hq]
        exact ⟨fun e => absurd (hunread.1 e) (by decide), nofun⟩
      · rw [hself, hport]
        exact ⟨fun _ => rfl, fun _ => rfl⟩
      · rw [hself] at hr
        rw [← Option.some.inj hr, hm] at hx
        cases hx
      · rw [hself] at hr
        rw [← Option.some.inj hr, hm]
        decide
    · have hport : t.port q = s.port q := by
        rw [← ht]
        exact State.setPort_port_ne _ _ hq
      exact (hlink q).same ⟨by rw [hport], by rw [hport], by rw [hunit, if_neg hq], .congr hburst⟩

/-- A port that waits for no burst keeps its law when a burst ends. -/
theorem State.Linked.burst_over {S : Prop} {s t : State} {p : Port} (hs : s.Linked S p) (hp : t.port p = s.port p)
    (hl : t.loadUnit p = s.loadUnit p) (hw : ∀ r, (s.loadUnit p).readback = some r → r.mark ≠ .cancelledInFlight) :
    t.Linked S p := by
  obtain ⟨hunread, hreadback, -, hanswered⟩ := hs
  refine ⟨by rw [hp]; exact hunread, by rw [hp, hl]; exact hreadback, fun r hr hm => ?_, by rw [hl]; exact hanswered⟩
  rw [hl] at hr
  exact absurd hm (hw r hr)

/-- The end of a kept burst of a readback (R35, R36). -/
theorem takeRead_laws {C S : Prop} {s : State} (hs : s.Laws C S) (p : Port) (slots : List Slot) :
    (s.takeRead p slots).Laws C S := by
  cases hr : (s.loadUnit p).readback with
  | none =>
    unfold State.takeRead
    simp only [hr]
    exact hs
  | some rb =>
    rw [State.takeRead_eq hr]
    split
    case isTrue =>
      exact readbackAnswered_laws hs.load (fun q _ => hs.link q) _ _
    case isFalse =>
      have hunit := fun q => s.setLoad_loadUnit p q { s.loadUnit p with readback := some (rb.extend slots) }
      have hself := s.setLoad_loadUnit_self p { s.loadUnit p with readback := some (rb.extend slots) }
      refine ⟨hs.load.same ⟨fun _ => rfl, fun q => ?_, fun q r hx hm => ?_, fun q b hb => .inl ⟨b, hb, rfl⟩⟩, fun q => ?_⟩
      · rw [hunit]
        split
        case isTrue e => rw [e]; rfl
        case isFalse => rfl
      · rw [hunit] at hx
        split at hx
        case isTrue e =>
          rw [← Option.some.inj hx] at hm ⊢
          exact ⟨rb, by rw [e, hr], rfl, hm⟩
        case isFalse => exact ⟨r, hx, rfl, hm⟩
      · by_cases hq : q = p
        · subst hq
          obtain ⟨hunread, hreadback, hwaiting, hanswered⟩ := hs.link q
          refine ⟨hunread, ?_, fun r hx hm => ?_, fun c r hx => ?_⟩
          · rw [hself]
            exact ⟨fun _ => hreadback.1 (by rw [hr]; rfl), fun _ => rfl⟩
          · rw [hself] at hx
            rw [← Option.some.inj hx] at hm
            exact hwaiting rb hr hm
          · rw [hself] at hx
            rw [← Option.some.inj hx]
            exact hanswered c rb hr
        · exact (hs.link q).same (.of_eq rfl rfl (by rw [hunit, if_neg hq]))

/-- The completion of a read burst of a Load Unit (R35, R37). -/
theorem readDone_laws {C : Prop} {s : State} {p : Port} {b : Burst} (hs : s.Laws C True) (hb : s.burst = some b)
    (hreq : b.requester = .loadUnit p) : (s.readDone p b).Laws C True := by
  unfold State.readDone
  dsimp only
  refine State.Laws.same ?_ (arbitrate_sameLoads _)
  have hload := hs.load.same (endRead_sameRecords s b)
  have hother : ∀ q, q ≠ p → ¬ s.Discarding q := fun q hq ⟨x, hx, _⟩ => by
    obtain ⟨hxb, hxr⟩ := (s.loadBurst_eq_some q x).1 hx
    rw [← Option.some.inj (hb.symm.trans hxb), hreq] at hxr
    exact hq (Requester.loadUnit.inj hxr).symm
  have hrest : ∀ q, (s.endRead b).port q = s.port q ∧ (s.endRead b).loadUnit q = s.loadUnit q := fun q => by
    obtain ⟨_, _, _, e⟩ := s.endRead_eq b
    rw [e]
    exact ⟨rfl, rfl⟩
  have hlink : ∀ q, q ≠ p → (s.endRead b).Linked True q := fun q hq =>
    (hs.link q).burst_over (hrest q).1 (hrest q).2 fun r hr hm => hother q hq ((hs.link q).waiting r hr hm)
  split
  case isTrue hk =>
    refine takeRead_laws ⟨hload, fun q => ?_⟩ p _
    by_cases hq : q = p
    · refine (hs.link q).burst_over (hrest q).1 (hrest q).2 fun r hr hm => ?_
      exact State.not_discarding hb (fun _ _ => .inr hk) q ((hs.link q).waiting r hr hm)
    · exact hlink q hq
  case isFalse =>
    have hstay : (∀ r, (s.loadUnit p).readback = some r → r.mark ≠ .cancelledInFlight) → (s.endRead b).Laws C True :=
      fun h => ⟨hload, fun q => by
        by_cases hq : q = p
        · exact (hs.link q).burst_over (hrest q).1 (hrest q).2 (hq ▸ h)
        · exact hlink q hq⟩
    cases hr : (s.loadUnit p).readback with
    | none =>
      rw [State.dropRead_of_none (by rw [(hrest p).2, hr])]
      exact hstay (by rw [hr]; exact nofun)
    | some rb =>
      have hr' : ((s.endRead b).loadUnit p).readback = some rb := by rw [(hrest p).2, hr]
      by_cases hm : rb.mark = .cancelledInFlight
      · rw [State.dropRead_of_waiting hr' hm]
        exact readbackAnswered_laws hload hlink _ _
      · rw [State.dropRead_of_not_waiting hr' hm]
        refine hstay fun x hx => ?_
        rw [← Option.some.inj (hr.symm.trans hx)]
        exact hm

/-! ### Port resets -/

theorem dropReadBurst_sameLoads (s : State) (p : Port) : SameLoads s (s.dropReadBurst p) := by
  rw [s.dropReadBurst_eq p]
  refine .of_loads rfl (fun _ => rfl) (fun _ => ⟨rfl, rfl⟩) ?_
  cases hb : s.burst with
  | none => exact .inl hb.symm
  | some b =>
    dsimp only [Option.map_some]
    unfold Burst.discard
    split
    · exact .inr (.inl ⟨b, hb, rfl⟩)
    · exact .inl hb.symm

/-- The Load Unit at a port reset (R29): its readback is gone, and an open load is aborted. -/
theorem resetLoad_spec {C : Prop} {s : State} (hs : s.LoadSide C) (p : Port) :
    (s.resetLoad p).LoadSide C ∧ ((s.resetLoad p).loadUnit p).readback = none
      ∧ ∀ q, q ≠ p → SameLink s (s.resetLoad p) q := by
  have hdrop := dropReadBurst_sameLoads s p
  unfold State.resetLoad
  dsimp only
  generalize s.dropReadBurst p = u at hdrop
  have hunit := fun q => u.setLoad_loadUnit p q { u.loadUnit p with readback := none }
  have hnone : ((u.setLoad p { u.loadUnit p with readback := none }).loadUnit p).readback = none := by
    rw [hunit, if_pos rfl]
  have hload : (u.setLoad p { u.loadUnit p with readback := none }).LoadSide C := by
    refine (hs.same hdrop.records).same ⟨fun _ => rfl, fun q => ?_, fun q r hr hm => ?_, fun q b hb => .inl ⟨b, hb, rfl⟩⟩
    · rw [hunit]
      split
      case isTrue e => rw [e]; rfl
      case isFalse => rfl
    · rw [hunit] at hr
      split at hr
      · cases hr
      · exact ⟨r, hr, rfl, hm⟩
  have hlink : ∀ q, q ≠ p → SameLink s (u.setLoad p { u.loadUnit p with readback := none }) q := fun q hq =>
    (hdrop.link q).trans (.of_eq rfl rfl (by rw [hunit, if_neg hq]))
  split
  case isTrue ho =>
    obtain ⟨habort, hsame⟩ := abortOpen_spec hload ho
    exact ⟨habort, (hsame p).readback.trans hnone, fun q hq => (hlink q hq).trans (hsame q)⟩
  case isFalse => exact ⟨hload, hnone, hlink⟩

/-- A port reset (R161) leaves its port in IDLE, ready for a command. -/
theorem resetOnePort_taking {C : Prop} {s : State} (hs : s.Laws C True) (p : Port) :
    (s.resetOnePort p).Taking C True p := by
  unfold State.resetOnePort
  dsimp only
  have hclaims : SameLoads s { s with
    claims := s.claims.map fun (k : Claim) => if k.controller = some p then ⟨none, false⟩ else k } := .of_eq rfl rfl rfl rfl
  have hs' := hs.same hclaims
  generalize ({ s with claims := _ } : State) = v at hs'
  obtain ⟨hload, hnone, hlink⟩ := resetLoad_spec hs'.load p
  generalize v.resetLoad p = u at hload hnone hlink
  refine ⟨⟨hload.same ⟨fun _ => rfl, fun _ => rfl, fun q r hr hm => ⟨r, hr, rfl, hm⟩, fun q b hb => .inl ⟨b, hb, rfl⟩⟩,
    fun q => ?_⟩, by rw [State.setPort_port_self]⟩
  by_cases hq : q = p
  · subst hq
    refine ⟨?_, ?_, fun r hr => ?_, fun _ r hr => ?_⟩
    · rw [State.setPort_port_self]
      exact ⟨nofun, nofun⟩
    · rw [State.setPort_port_self]
      change (u.loadUnit q).readback.isSome = true ↔ _
      rw [hnone]
      exact ⟨nofun, nofun⟩
    all_goals
      have hr : (u.loadUnit q).readback = some r := hr
      rw [hnone] at hr
      cases hr
  · have hport := State.setPort_port_ne (u.setPassOver p 0) { (u.setPassOver p 0).port p with
      proto := .idle, unread := none, overrun := false, lost := false, events := [], enable := 0#15 } hq
    exact ((hs'.link q).same (hlink q hq)).same ⟨by rw [hport]; rfl, by rw [hport]; rfl, rfl, .congr rfl⟩

theorem reset_laws (C : Prop) : State.reset.Laws C True :=
  ⟨State.LoadLaw.loadSide reset_loadLaw fun _ => ⟨reset_countLaw, reset_pageCountLaw⟩,
    (protocolLaw_iff _).1 reset_protocolLaw⟩

end Sys2Proof.Machine
end

section
/-! ## Every step keeps the laws of loads and ports (R18, R20, R21, R33, R165, R167) -/

namespace Sys2Proof.Machine

/-- A command that answers after doing what leaves the laws alone. -/
theorem State.Taking.answered {C S : Prop} {p : Port} {u v : State} (h : u.Taking C S p) (k : SameLoads u v) (e : Byte)
    (st : Status) (pl : List Byte) : (v.respond p e st pl).Laws C S := (h.same k).respond e st pl

theorem openOn_taking {C S : Prop} {p : Port} {s : State} {i : SegId} {n : Nat} {vis : Byte} {v : Visibility}
    (label : Option Half) (hs : s.Taking C S p) (h : s.openCheck p i n vis = .ok v) :
    (s.openOn p i n v label).Taking C S p := by
  obtain ⟨hlaws, hidle⟩ := hs
  have hmoved := openOn_moved label hlaws.load h
  obtain ⟨hports, hburst⟩ : (s.openOn p i n v label).ports = s.ports ∧ (s.openOn p i n v label).burst = s.burst := by
    unfold State.openOn
    obtain ⟨pg, e⟩ := s.takePages_eq (pagesFor n)
    dsimp only
    rw [e]
    exact ⟨rfl, rfl⟩
  exact ⟨hlaws.moved hmoved hports hburst, (hmoved.link hports hburst p).proto.trans hidle⟩

theorem closeOn_taking {C S : Prop} {p : Port} {s : State} {i : SegId} (hs : s.Taking C S p)
    (hi : (s.loadUnit p).seg = some i) (hn : (s.loadUnit p).phase ≠ .noLoad)
    (hb : ¬ ((s.loadUnit p).phase = .aborting ∨ (s.loadUnit p).buffer ≠ [])) : (s.closeOn p i).1.Taking C S p := by
  obtain ⟨hlaws, hidle⟩ := hs
  obtain ⟨ha, hbuffer⟩ := not_or.1 hb
  have ho : (s.loadUnit p).phase = .opened := by
    cases hp : (s.loadUnit p).phase with
    | noLoad => exact absurd hp hn
    | opened => rfl
    | aborting => exact absurd hp ha
  obtain ⟨hmoved, hports, hburst⟩ := closeOn_moved hlaws.load hi ho (not_not.1 hbuffer)
  exact ⟨hlaws.moved hmoved hports hburst, (hmoved.link hports hburst p).proto.trans hidle⟩

theorem abortOpen_taking {C S : Prop} {p : Port} {s : State} (hs : s.Taking C S p) (ho : (s.loadUnit p).phase = .opened) :
    (s.abortOpen p).Taking C S p := by
  obtain ⟨hlaws, hidle⟩ := hs
  obtain ⟨hload, hsame⟩ := abortOpen_spec hlaws.load ho
  exact ⟨⟨hload, fun q => (hlaws.link q).same (hsame q)⟩, (hsame p).proto.trans hidle⟩

theorem loadData_taking {C S : Prop} {p : Port} {s : State} (hs : s.Taking C S p) (samples : List Sample) :
    (s.setLoad p (loadDataOn (s.loadUnit p) (s.declaredOf (s.loadUnit p)) samples).2).Taking C S p :=
  ⟨loadData_laws hs.1 p samples, hs.2⟩

/-- READ_TRANSACTION (R170): a response read to its end leaves the port IDLE. -/
theorem execReadTransaction_laws {C : Prop} {s t : State} (hs : s.Laws C True) (p : Port) (n : Nat)
    (h : execReadTransaction p n s = .next t) : t.Laws C True := by
  cases h
  have hold := hs.link p
  dsimp only
  split
  · exact hs
  · split
    case h_1 hproto hunread =>
      split
      · refine setPort_laws hs (by simp) ?_
        rw [hproto]
        exact ⟨nofun, nofun⟩
      · exact setPort_laws hs (by simp [hproto]) .rfl
    case h_2 => exact hs.same (setPort_sameLoads s p _ rfl rfl)

theorem deviceReset_laws {C : Prop} {s t : State} (h : execDeviceReset s = .next t) : t.Laws C True := by
  cases h
  refine (reset_laws C).same (.of_loads rfl (fun _ => rfl) (fun p => ?_) (.inl rfl))
  cases p <;> exact ⟨rfl, rfl⟩

theorem discardFrame_laws {C : Prop} {s : State} (hs : s.Laws C True) (p : Port) (n : Nat) :
    (s.discardFrame p n).Laws C True := by
  unfold State.discardFrame
  split
  · exact onPort_laws hs fun u hu => hu.1
  · exact hs

/-! ### The commands that move loads, segments or readbacks -/

theorem execOpenLoad_laws {C : Prop} {s t : State} (hs : s.Laws C True) (p : Port) (seg : Byte) (declared : Long) (vis : Byte) (label : Option Half)
    (h : execOpenLoad p seg declared vis label s = .next t) : t.Laws C True := by
  cases h
  refine onPort_laws hs fun u hu => ?_
  split
  · exact hu.respond _ _ _
  · rename_i hcheck
    exact (openOn_taking label hu hcheck).respond _ _ _

theorem execLoadData_laws {C : Prop} {s t : State} (hs : s.Laws C True) (p : Port) (samples : List Sample)
    (h : execLoadData p samples s = .next t) : t.Laws C True := by
  cases h
  exact onPort_laws hs fun u hu => ((loadData_taking hu samples).respond _ _ _).same (arbitrate_sameLoads _)

theorem execCloseLoad_laws {C : Prop} {s t : State} (hs : s.Laws C True) (p : Port)
    (h : execCloseLoad p s = .next t) : t.Laws C True := by
  cases h
  refine onPort_laws hs fun u hu => ?_
  dsimp only
  split
  · exact hu.respond _ _ _
  · rename_i i hi
    split
    · exact hu.respond _ _ _
    · rename_i hn
      split
      · exact hu.respond _ _ _
      · rename_i hb
        exact (closeOn_taking hu hi hn hb).respond _ _ _

theorem execAbortLoad_laws {C : Prop} {s t : State} (hs : s.Laws C True) (p : Port)
    (h : execAbortLoad p s = .next t) : t.Laws C True := by
  cases h
  refine onPort_laws hs fun u hu => ?_
  split
  · exact hu.respond _ _ _
  · exact hu.respond _ _ _
  · rename_i ho
    exact (abortOpen_taking hu ho).respond _ _ _

theorem execDeleteSegment_laws {C : Prop} {s t : State} (hs : s.Laws C True) (p : Port) (seg : Byte)
    (h : execDeleteSegment p seg s = .next t) : t.Laws C True := by
  cases h
  refine onPort_laws hs fun u hu => ?_
  split
  · exact hu.respond _ _ _
  · rename_i hdelete
    exact settleCancelled_laws ((deleteOn_taking hu hdelete).respond _ _ _)

theorem execReadSegment_laws {C : Prop} {s t : State} (hs : s.Laws C True) (p : Port) (seg : Byte) (offset : Half) (count : Byte)
    (h : execReadSegment p seg offset count s = .next t) : t.Laws C True := by
  cases h
  refine onPort_laws hs fun u hu => ?_
  split
  · exact hu.respond _ _ _
  · rename_i hcheck
    obtain ⟨hstate, hseg, hmark⟩ := readCheck_ok hcheck
    exact (readSegment_laws hu (hseg ▸ hstate) hmark).same (arbitrate_sameLoads _)

theorem execPutEntry_laws {C : Prop} {s t : State} (hs : s.Laws C True) (p : Port) (ch index : Byte) (entry : EntryArg)
    (h : execPutEntry p ch index entry s = .next t) : t.Laws C True := by
  cases h
  refine onPort_laws hs fun u hu => ?_
  split
  · exact hu.respond _ _ _
  · split
    · exact hu.respond _ _ _
    · exact settleCancelled_laws ((putOn_taking hu.pending _ _ _).respond _ _ _)

theorem execTrimList_laws {C : Prop} {s t : State} (hs : s.Laws C True) (p : Port) (ch newLength : Byte)
    (h : execTrimList p ch newLength s = .next t) : t.Laws C True := by
  cases h
  refine onPort_laws hs fun u hu => ?_
  split
  · exact hu.respond _ _ _
  · split
    · exact hu.respond _ _ _
    · exact settleCancelled_laws ((trimOn_taking hu.pending _ _).respond _ _ _)

theorem execResetPort_laws {C : Prop} {s t : State} (hs : s.Laws C True) (p : Port)
    (h : execResetPort p s = .next t) : t.Laws C True := by
  cases h
  exact onPort_laws hs fun u hu => (resetOnePort_taking hu.1 p).respond _ _ _

/-! ### Frames and events -/

theorem execSclkRisingEdge_sameLoads (s : State) : ∃ t, execSclkRisingEdge s = .next t ∧ SameLoads s t := by
  refine ⟨_, rfl, (finishEdge_sameLoads s).trans ?_⟩
  dsimp only
  split <;> exact clocked_sameLoads _ _ _

/-- The events that are no taken frame. -/
theorem exec_event_laws {C : Prop} {i : Instr} {s t : State} (hs : s.Laws C True) (hi : framePort i = none)
    (h : exec i s = .next t) : t.Laws C True := by
  cases i
  case badFrame p bytes =>
    cases h
    split
    · exact hs
    · split
      · exact onPort_laws hs fun u hu => hu.respond _ _ _
      · exact discardFrame_laws hs p _
  case overrun p =>
    cases h
    exact discardFrame_laws hs p 1
  case readTransaction p clocked => exact execReadTransaction_laws hs p clocked h
  case deviceReset => exact deviceReset_laws h
  case resetRelease levels =>
    cases h
    exact hs.same (.ite (.of_eq rfl rfl rfl rfl) (.refl s))
  case portReset p =>
    cases h
    exact (resetOnePort_taking hs p).1.same (setPort_sameLoads _ p _ rfl rfl)
  case prstRelease p =>
    cases h
    exact hs.same (setPort_sameLoads s p _ rfl rfl)
  case clockLost =>
    cases h
    split
    · exact hs.same (clockIsLost_sameLoads s)
    · exact hs
  case runLengthReset =>
    cases h
    split
    · exact hs.same (.of_eq rfl rfl rfl rfl)
    · exact hs
  case clockRestored =>
    cases h
    split
    · exact hs.same (clockIsBack_sameLoads s)
    · exact hs
  case outputTick c | starved c =>
    cases h
    exact hs.same (.ite (tickChannel_sameLoads s c) (.refl s))
  case markerPulseEnd c u =>
    cases h
    exact hs.same (.ite ((setChan_sameLoads s c _).trans (noteLines_sameLoads s c _)) (.refl s))
  case trgEdge pin level =>
    cases h
    exact hs.same (.ite (judgePin_sameLoads s pin level) (.refl s))
  case syncLineEdge line =>
    cases h
    split
    · exact hs.same ((finishTicks_sameLoads s).trans (deliverEvent_sameLoads _ _))
    · exact hs
  case fetchBurstComplete us =>
    cases h
    split
    · rename_i b hb
      split
      · rename_i c hreq
        refine (hs.same (disturb_sameLoads s us)).same (fetchDone_sameLoads _ c b (State.not_discarding hb fun p hp => ?_))
        rw [hreq] at hp
        cases hp
      · exact hs
    · exact hs
  case drainBurstComplete =>
    cases h
    split
    · rename_i b hb
      split
      · rename_i p hreq hw
        exact drainDone_laws hs ((s.drainInFlight_eq_some p b).2 ⟨hb, hreq, hw⟩)
      · exact hs
    · exact hs
  case readbackBurstComplete us =>
    cases h
    split
    · rename_i b hb
      split
      · rename_i p hreq _
        exact readDone_laws (hs.same (disturb_sameLoads s us)) hb hreq
      · exact hs
    · exact hs
  case sclkRisingEdge =>
    obtain ⟨u, hu, hsame⟩ := execSclkRisingEdge_sameLoads s
    obtain rfl := Host.Outcome.next.inj (hu.symm.trans h)
    exact hs.same hsame
  case judgedLevelChange pin level =>
    cases h
    exact hs.same (.ite (.refl s) (judgePin_sameLoads s pin level))
  all_goals cases hi

theorem exec_frame_laws {C : Prop} {i : Instr} {p : Port} {s t : State} (hs : s.Laws C True) (hi : framePort i = some p)
    (h : exec i s = .next t) : t.Laws C True := by
  cases i
  case openLoad p seg declared vis label => exact execOpenLoad_laws hs p seg declared vis label h
  case loadData p samples => exact execLoadData_laws hs p samples h
  case closeLoad p => exact execCloseLoad_laws hs p h
  case abortLoad p => exact execAbortLoad_laws hs p h
  case deleteSegment p seg => exact execDeleteSegment_laws hs p seg h
  case readSegment p seg offset count => exact execReadSegment_laws hs p seg offset count h
  case putEntry p ch index entry => exact execPutEntry_laws hs p ch index entry h
  case trimList p ch newLength => exact execTrimList_laws hs p ch newLength h
  case resetPort p => exact execResetPort_laws hs p h
  case identify p | queryStore p | querySegment p seg =>
    cases h
    exact onPort_laws hs fun u hu => hu.respond _ _ _
  case setVisibility p seg vis =>
    cases h
    refine onPort_laws hs fun u hu => ?_
    split
    · exact hu.respond _ _ _
    · exact hu.answered (by exact setSeg_sameLoads u _ _ rfl) _ _ _
  case queryEntry p ch index =>
    cases h
    refine onPort_laws hs fun u hu => ?_
    split
    · exact hu.respond _ _ _
    · split <;> exact hu.respond _ _ _
  case claim p mask yieldable take =>
    cases h
    refine onPort_laws hs fun u hu => ?_
    split
    · exact hu.respond _ _ _
    · exact hu.answered (.foldl (claimOne_sameLoads p yieldable take) _ u) _ _ _
  case release p mask =>
    cases h
    refine onPort_laws hs fun u hu => ?_
    split
    · exact hu.respond _ _ _
    · exact hu.answered (.foldl (releaseOne_sameLoads p) _ u) _ _ _
  case setStatic p ch args | setLive p ch point args =>
    cases h
    refine onPort_laws hs fun u hu => ?_
    split
    · exact hu.respond _ _ _
    · split
      · exact hu.respond _ _ _
      · exact hu.answered (setChan_sameLoads u _ _) _ _ _
  case applyGroup p mask =>
    cases h
    refine onPort_laws hs fun u hu => ?_
    split
    · exact hu.respond _ _ _
    · split
      · exact hu.respond _ _ _
      · exact hu.answered (.foldl (fun v c => setChan_sameLoads v c _) _ u) _ _ _
  case arm p ch =>
    cases h
    refine onPort_laws hs fun u hu => ?_
    split
    · exact hu.respond _ _ _
    · split
      · exact hu.respond _ _ _
      · split
        · exact hu.respond _ _ _
        · split
          · exact hu.respond _ _ _
          · exact (hu.answered (putWork_sameLoads u _ _ (Work.arm_steady _ _)) _ _ _).same (arbitrate_sameLoads _)
  case disarm p ch =>
    cases h
    refine onPort_laws hs fun u hu => ?_
    split
    · exact hu.respond _ _ _
    · split
      · exact hu.answered (putWork_sameLoads u _ _ (Work.disarm_steady _ _)) _ _ _
      · exact hu.answered (putWork_sameLoads u _ _ (Work.disarm_steady _ _)) _ _ _
      all_goals exact hu.respond _ _ _
  case start p mask =>
    cases h
    refine onPort_laws hs fun u hu => ?_
    split
    · exact hu.respond _ _ _
    · split
      · exact hu.respond _ _ _
      · split
        · exact hu.respond _ _ _
        · exact hu.answered (.foldl (fun v c => setChan_sameLoads v c _) _ u) _ _ _
  case stop p mask mode =>
    cases h
    refine onPort_laws hs fun u hu => ?_
    split
    · exact hu.respond _ _ _
    · split
      · exact hu.respond _ _ _
      · split
        · exact hu.respond _ _ _
        · exact hu.answered (.foldl (fun v c => putWork_sameLoads v c _ (Work.stopCommand_steady c _ _)) _ u) _ _ _
  case jump p ch target =>
    cases h
    refine onPort_laws hs fun u hu => ?_
    split
    · exact hu.respond _ _ _
    · split
      · exact hu.respond _ _ _
      · exact (hu.answered (putWork_sameLoads u _ _ (Work.jumpCommand_steady _ _ _)) _ _ _).same (arbitrate_sameLoads _)
  case clearFault p ch =>
    cases h
    refine onPort_laws hs fun u hu => ?_
    split
    · exact hu.respond _ _ _
    · split
      · exact hu.answered (setChan_sameLoads u _ _) _ _ _
      · exact hu.respond _ _ _
  case queryList p ch | queryChannel p ch =>
    cases h
    refine onPort_laws hs fun u hu => ?_
    split <;> exact hu.respond _ _ _
  case setSourceEdge p source mode =>
    cases h
    refine onPort_laws hs fun u hu => ?_
    split
    · exact hu.respond _ _ _
    · exact hu.answered (writeEdgeMode_sameLoads u _ _ _) _ _ _
    · exact hu.respond _ _ _
  case setMarker p ch unit args =>
    cases h
    refine onPort_laws hs fun u hu => ?_
    split
    · exact hu.respond _ _ _
    · exact hu.answered (setChan_sameLoads u _ _) _ _ _
  case setSyncDriver p line driver =>
    cases h
    refine onPort_laws hs fun u hu => ?_
    split
    · exact hu.respond _ _ _
    · split
      · exact hu.respond _ _ _
      · split
        · exact hu.respond _ _ _
        · split
          · exact hu.answered (drive_sameLoads u _ _) _ _ _
          · exact hu.respond _ _ _
  case fire p =>
    cases h
    exact onPort_laws hs fun u hu => hu.answered (trigger_sameLoads u _) _ _ _
  case setEventEnable p kinds =>
    cases h
    exact onPort_laws hs fun u hu => hu.answered (by exact setPort_sameLoads u _ _ rfl rfl) _ _ _
  case takeEvents p =>
    cases h
    exact onPort_laws hs fun u hu => hu.answered (by exact setPort_sameLoads u _ _ rfl rfl) _ _ _
  all_goals cases hi

theorem exec_laws {C : Prop} {i : Instr} {s t : State} (hs : s.Laws C True) (h : exec i s = .next t) :
    t.Laws C True := by
  cases hi : framePort i with
  | none => exact exec_event_laws hs hi h
  | some p => exact exec_frame_laws hs hi h

theorem step_laws {C : Prop} {s t : State} (hs : s.Laws C True) (h : step s = .next t) : t.Laws C True := by
  cases hp : s.pending with
  | nil =>
    cases (step_nil s hp).symm.trans h
    exact hs.same (refclkPeriod_sameLoads s)
  | cons c q =>
    have hq : State.Laws C True { s with pending := q } := hs.same (.of_eq rfl rfl rfl rfl)
    exact exec_laws hq ((step_cons s c q hp).symm.trans h)

/-- Settles O55: each command keeps the load side and the link side of the laws together; the counts are kept where they
held before. -/
theorem loadAndProtocolLawsKept : Obligations.LoadAndProtocolLawsKept := by
  intro s t hload hprotocol h
  have hs : s.Laws (s.CountLaw ∧ s.PageCountLaw) True := ⟨hload.loadSide id, (protocolLaw_iff s).1 hprotocol⟩
  obtain ⟨hload', hlink⟩ := step_laws hs h
  exact ⟨hload'.loadLaw, (protocolLaw_iff t).2 hlink, fun hcount hpages =>
    ⟨(countLaw_iff t).2 (hload'.counts ⟨hcount, hpages⟩), hload'.pages ⟨hcount, hpages⟩⟩⟩

end Sys2Proof.Machine
end

section
/-! ## Loads opened and written, visibility and readbacks asked for (R22, R23, R32 to R34) -/

namespace Sys2Proof.Machine

/-! ### The state a command acts on -/

/-- On a port that takes frames the command acts on the state with the bytes clocked, the ports' records apart. -/
theorem frame_acts {i : Instr} {p : Port} {s : State} (hi : framePort i = some p) (hl : s.Listening p) :
    ∃ ps, (s.took i).opened p = { s.took i with ports := ps }
      ∧ ∀ act, onPort p (frameLength i) s act = act { s.took i with ports := ps } := by
  have hrest := (s.took i).opened_rest p
  have hopened : (s.took i).opened p = { s.took i with ports := ((s.took i).opened p).ports } :=
    (congrArg (fun x : State => { x with ports := ((s.took i).opened p).ports }) hrest :)
  refine ⟨_, hopened, fun act => ?_⟩
  rw [onPort_listening _ _ hl, ← State.took_of hi, ← hopened]

/-- The ports' records do not matter to what the command does to the rest; its answer is formed from them. -/
theorem respond_answered {s v : State} {p : Port} {ps : PerPort PortRec} (ho : s.opened p = { s with ports := ps })
    (hv : v.ports = ps) (e : Byte) (st : Status) (pl : List Byte) :
    Answered s (v.respond p e st pl) p e st pl ∧ OnlyAnswer s (v.respond p e st pl) p := by
  have hport : ∀ q, v.port q = (s.opened p).port q := fun q => by
    rw [ho]
    exact congrArg (fun x : PerPort PortRec => x.get q) hv
  obtain ⟨hanswered, ⟨⟨henable, hprst, hout⟩, hevents, hother⟩, -⟩ := respond_opened s p e st pl
  unfold Answered OnlyAnswer SameLine at *
  rw [State.respond_port, State.respond_port_other, hport] at *
  exact ⟨hanswered, ⟨henable, hprst, hout⟩, hevents, by rw [hport]; exact hother⟩

/-- A command that is refused. -/
theorem respond_refused {s : State} {p : Port} {ps : PerPort PortRec} (ho : s.opened p = { s with ports := ps })
    (e : Byte) (st : Status) (pl : List Byte) :
    OnlyAnswered s (State.respond { s with ports := ps } p e st pl) p e st pl :=
  ho ▸ respond_opened s p e st pl

theorem one_lt_toNat_iff (b : Byte) : 1 < b.toNat ↔ b ≠ 0#8 ∧ b ≠ 1#8 := by
  bv_omega

/-- The two bytes that name a visibility (R173). -/
theorem visOf_eq (b : Byte) :
    visOf b = if 1 < b.toNat then none else some (if b = 0#8 then .ownerOnly else .shared) := by
  have h := one_lt_toNat_iff b
  unfold visOf
  by_cases h0 : b = 0#8 <;> by_cases h1 : b = 1#8 <;> simp [h0, h1, h]

/-! ### SET-VISIBILITY -/

/-- Settles O14: the checks refuse in order, and one that passes writes the visibility alone. -/
theorem setsVisibility : Obligations.SetsVisibility := by
  intro s p seg vis hl
  obtain ⟨ps, ho, hact⟩ := frame_acts (i := .setVisibility p seg vis) rfl hl
  refine ⟨_, congrArg Host.Outcome.next (hact _), ?_⟩
  generalize s.took _ = w at ho
  have hrefused := respond_refused ho Code.setVisibility
  change VisibilityRule w (match w.visibilityCheck p (segOf seg) vis with
    | .error e => _
    | .ok v => _) p seg vis
  unfold VisibilityRule State.visibilityCheck
  rw [visOf_eq]
  simp only [one_lt_toNat_iff]
  split
  · exact hrefused _ _
  dsimp only
  split
  · exact hrefused _ _
  split
  · exact hrefused _ _
  split
  · exact hrefused _ _
  obtain ⟨hanswered, honly⟩ := respond_answered (v := State.setSeg { w with ports := ps } (segOf seg)
    { w.seg (segOf seg) with vis := some (if vis = 0#8 then .ownerOnly else .shared) }) ho rfl Code.setVisibility .ok []
  exact ⟨hanswered, honly, State.setSeg_seg_self _ _ _, fun j hj => State.setSeg_seg_ne _ _ hj, rfl⟩

/-! ### OPEN-LOAD -/

/-- The checks of OPEN-LOAD with the numbers of the visibility byte and the pages written out. -/
theorem openCheck_eq (s : State) (p : Port) (i : SegId) (n : Nat) (vis : Byte) :
    s.openCheck p i n vis =
      if (s.loadUnit p).phase ≠ .noLoad then .error .loadOpen
      else if (s.seg i).state ≠ .free then .error .segmentState
      else if n < 16 ∨ 65536 < n ∨ 1 < vis.toNat then .error .badArgument
      else if s.freeList.length < (n + 255) / 256 then .error .noSpace
      else .ok (if vis = 0#8 then .ownerOnly else .shared) := by
  unfold State.openCheck
  rw [visOf_eq]
  by_cases hvis : 1 < vis.toNat
  · simp [hvis]
  · simp only [hvis, if_false, or_false]
    rfl

/-- An OPEN-LOAD taken (R22). -/
theorem openOn_rule {s : State} {p : Port} {ps : PerPort PortRec} (ho : s.opened p = { s with ports := ps }) (i : SegId)
    (n : Nat) (v : Visibility) (label : Option Half) (e : Byte) (st : Status) (pl : List Byte) :
    let t := (State.openOn { s with ports := ps } p i n v label).respond p e st pl
    Answered s t p e st pl ∧ OnlyAnswer s t p
      ∧ t.freeList = s.freeList.drop ((n + 255) / 256)
      ∧ (∀ m, t.page m =
          if m ∈ s.freeList.take ((n + 255) / 256) then { s.page m with state := .held } else s.page m)
      ∧ t.seg i = ⟨.loading, some p, some v, some n, none, s.freeList.take ((n + 255) / 256), 0, false, label⟩
      ∧ OtherSegs s t i
      ∧ t.loadUnit p = ⟨.opened, some i, 0, 0, [], false, (s.loadUnit p).readback⟩
      ∧ t.loadUnit p.other = s.loadUnit p.other
      ∧ { t with ports := s.ports, freeList := s.freeList, pages := s.pages, segs := s.segs, loads := s.loads } = s := by
  have hpage := State.takePages_page { s with ports := ps } ((n + 255) / 256)
  obtain ⟨pg, hg⟩ := State.takePages_eq { s with ports := ps } ((n + 255) / 256)
  rw [hg] at hpage
  intro t
  have ht : t = State.respond (State.setLoad (State.setSeg { s with
      freeList := s.freeList.drop ((n + 255) / 256), pages := pg, ports := ps } i
        ⟨.loading, some p, some v, some n, none, s.freeList.take ((n + 255) / 256), 0, false, label⟩) p
        ⟨.opened, some i, 0, 0, [], false, (s.loadUnit p).readback⟩) p e st pl := by
    unfold t State.openOn
    dsimp only
    rw [show pagesFor n = (n + 255) / 256 from rfl, hg]
    rfl
  clear_value t
  subst ht
  obtain ⟨hanswered, honly⟩ := respond_answered (v := State.setLoad (State.setSeg { s with
      freeList := s.freeList.drop ((n + 255) / 256), pages := pg, ports := ps } i
        ⟨.loading, some p, some v, some n, none, s.freeList.take ((n + 255) / 256), 0, false, label⟩) p
        ⟨.opened, some i, 0, 0, [], false, (s.loadUnit p).readback⟩) ho rfl e st pl
  exact ⟨hanswered, honly, rfl, hpage, State.setSeg_seg_self _ _ _, fun j hj => State.setSeg_seg_ne _ _ hj,
    State.setLoad_loadUnit_self _ _ _, State.setLoad_loadUnit_other _ _ _, rfl⟩

/-- Settles O9: the checks refuse in order, and one that passes opens the load. -/
theorem openLoads : Obligations.OpenLoads := by
  intro s p seg declared vis label hl
  obtain ⟨ps, ho, hact⟩ := frame_acts (i := .openLoad p seg declared vis label) rfl hl
  refine ⟨_, congrArg Host.Outcome.next (hact _), ?_⟩
  generalize s.took _ = w at ho
  have hrefused := respond_refused ho Code.openLoad
  change OpenLoadRule w (match w.openCheck p (segOf seg) declared.toNat vis with
    | .error e => _
    | .ok v => _) p seg declared vis label
  unfold OpenLoadRule
  dsimp only
  rw [openCheck_eq]
  split
  · exact hrefused _ _
  split
  · exact hrefused _ _
  split
  · exact hrefused _ _
  split
  · exact hrefused _ _
  exact openOn_rule ho _ _ _ label _ _ _

/-! ### LOAD-DATA -/

/-- LOAD-DATA on one Load Unit: the six cases with the empty buffer written out (R23). -/
theorem loadDataOn_eq (u : LoadUnit) (d : Nat) (samples : List Sample) :
    loadDataOn u d samples =
      if u.phase = .noLoad then (.noLoad, u)
      else if samples.length = 0 ∨ 128 < samples.length then (.badArgument, u)
      else if u.oversize = true then (.oversize, u)
      else if u.phase = .aborting ∨ u.buffer ≠ [] then (.busy, u)
      else if u.received + samples.length ≤ d then
        (.ok, { u with buffer := samples, received := u.received + samples.length })
      else
        (.oversize, { u with buffer := samples.take (d - u.received), received := d, oversize := true }) := by
  unfold loadDataOn
  by_cases hb : u.buffer = []
  · rw [hb]
    rfl
  · simp only [hb, ne_eq, not_false_eq_true, or_true, if_true]

/-- R23 of a state that has the answer and the Load Unit of `loadDataOn`. -/
theorem loadDataRule_of {s t : State} {p : Port} {samples : List Sample} {r : Status × LoadUnit}
    (hr : r = loadDataOn (s.loadUnit p) (s.declaredOf (s.loadUnit p)) samples)
    (hanswered : Answered s t p Code.loadData r.1 []) (honly : OnlyAnswer s t p) (hunit : t.loadUnit p = r.2)
    (hother : t.loadUnit p.other = s.loadUnit p.other) (hrest : { t with ports := s.ports, loads := s.loads } = s) :
    LoadDataRule s t p samples := by
  refine ⟨honly, hother, hrest, ?_⟩
  rw [loadDataOn_eq] at hr
  have key := And.intro hanswered hunit
  subst hr
  dsimp only
  split_ifs at key ⊢ <;> exact key

/-- Settles O10: whatever the case, the command writes its port's Load Unit and answers. -/
theorem loadsData : Obligations.LoadsData := by
  intro s p samples hl
  obtain ⟨ps, ho, hact⟩ := frame_acts (i := .loadData p samples) rfl hl
  refine ⟨_, congrArg Host.Outcome.next (hact _), ?_⟩
  generalize s.took _ = w at ho
  obtain ⟨hanswered, honly⟩ := respond_answered (v := State.setLoad { w with ports := ps } p
    (loadDataOn (w.loadUnit p) (w.declaredOf (w.loadUnit p)) samples).2) ho rfl Code.loadData
    (loadDataOn (w.loadUnit p) (w.declaredOf (w.loadUnit p)) samples).1 []
  exact loadDataRule_of rfl hanswered honly (State.setLoad_loadUnit_self _ _ _) (State.setLoad_loadUnit_other _ _ _) rfl

/-! ### READ-SEGMENT -/

/-- The checks of READ-SEGMENT, with the numbers of the readback written out. -/
theorem readCheck_eq (s : State) (p : Port) (i : SegId) (o n : Nat) :
    s.readCheck p i o n =
      if n < 1 ∨ 128 < n then .error .badArgument
      else if (s.seg i).state = .free then .error .segmentState
      else if (s.seg i).owner ≠ some p ∧ (s.seg i).vis = some .ownerOnly then .error .notVisible
      else if (s.seg i).state = .loading then .error .segmentState
      else if (s.seg i).length.getD 0 ≤ o then .error .badArgument
      else .ok ⟨i, o, o, if (s.seg i).length.getD 0 < o + n then (s.seg i).length.getD 0 - o else n, [], [],
        decide ((s.seg i).length.getD 0 < o + n), .live⟩ := by
  have hmin : ∀ L, min n (L - o) = if L < o + n then L - o else n := fun L => by
    split <;> omega
  unfold State.readCheck SegRec.hiddenFrom
  simp only [← Bool.decide_and, decide_eq_true_eq, hmin]

/-- A readback recorded for port p, which executes (R34, R167). -/
def State.readTaken (s : State) (p : Port) (rb : Readback) : State :=
  (s.setLoad p { s.loadUnit p with readback := some rb }).setPort p { s.port p with proto := .executing }

/-- READ-SEGMENT before the arbiter judges its request. -/
def State.readOn (s : State) (p : Port) (seg : Byte) (o n : Nat) : State :=
  match s.readCheck p (segOf seg) o n with
  | .error e => s.respond p Code.readSegment e [seg]
  | .ok rb => s.readTaken p rb

/-- Only a readback that is recorded leaves its port executing. -/
theorem readOn_judged (s : State) (p : Port) (seg : Byte) (o n : Nat) :
    (match s.readCheck p (segOf seg) o n with
      | .error e => s.respond p Code.readSegment e [seg]
      | .ok rb => (s.readTaken p rb).arbitrate) =
      if ((s.readOn p seg o n).port p).proto = .executing then (s.readOn p seg o n).arbitrate else s.readOn p seg o n := by
  unfold State.readOn
  cases s.readCheck p (segOf seg) o n with
  | error e => exact (if_neg (by simp)).symm
  | ok rb => exact (if_pos (by simp [State.readTaken])).symm

/-- A port that takes a frame has no unread response left (R169). -/
theorem State.opened_unread {s : State} {p : Port} (h : (s.port p).unread.isSome ↔ (s.port p).proto = .ready) :
    ((s.opened p).port p).unread = none := by
  unfold State.opened
  split
  case isTrue => rw [State.setPort_port_self]
  case isFalse hready => exact Option.not_isSome_iff_eq_none.1 (mt h.1 hready)

/-- R33, R34 of a state that is refused as the checks refuse, or has the readback that they pass. -/
theorem readSegmentRule_of {s t : State} {p : Port} {seg count : Byte} {offset : Half} {r : Except Status Readback}
    (hr : r = s.readCheck p (segOf seg) offset.toNat count.toNat)
    (hrefused : ∀ e, r = .error e → OnlyAnswered s t p Code.readSegment e [seg])
    (htaken : ∀ rb, r = .ok rb → OnlyAnswer s t p ∧ (t.port p).proto = .executing ∧ (t.port p).unread = none
      ∧ (t.port p).overrun = (s.port p).overrun
      ∧ (t.port p).lost = ((s.port p).lost || decide ((s.port p).proto = .ready))
      ∧ t.loadUnit p = { s.loadUnit p with readback := some rb } ∧ t.loadUnit p.other = s.loadUnit p.other
      ∧ { t with ports := s.ports, loads := s.loads } = s) :
    ReadSegmentRule s t p seg offset count := by
  rw [readCheck_eq] at hr
  unfold ReadSegmentRule
  by_cases h1 : count.toNat < 1 ∨ 128 < count.toNat
  · rw [if_pos h1] at hr ⊢
    exact hrefused _ hr
  rw [if_neg h1] at hr ⊢
  by_cases h2 : (s.seg (segOf seg)).state = .free
  · rw [if_pos h2] at hr ⊢
    exact hrefused _ hr
  rw [if_neg h2] at hr ⊢
  by_cases h3 : (s.seg (segOf seg)).owner ≠ some p ∧ (s.seg (segOf seg)).vis = some .ownerOnly
  · rw [if_pos h3] at hr ⊢
    exact hrefused _ hr
  rw [if_neg h3] at hr ⊢
  by_cases h4 : (s.seg (segOf seg)).state = .loading
  · rw [if_pos h4] at hr ⊢
    exact hrefused _ hr
  rw [if_neg h4] at hr ⊢
  by_cases h5 : (s.seg (segOf seg)).length.getD 0 ≤ offset.toNat
  · rw [if_pos h5] at hr ⊢
    exact hrefused _ hr
  rw [if_neg h5] at hr ⊢
  exact htaken _ hr

/-- Settles O15: the checks refuse in order; a readback that is recorded puts the port in EXECUTING, and only then does the
arbiter judge. -/
theorem readsSegments : Obligations.ReadsSegments := by
  intro s p seg offset count hlaw hl
  obtain ⟨ps, ho, hact⟩ := frame_acts (i := .readSegment p seg offset count) rfl hl
  have hunread : ((s.took (.readSegment p seg offset count)).opened p |>.port p).unread = none := by
    obtain ⟨h, -, -⟩ := hlaw p
    refine State.opened_unread ?_
    rw [State.took_port (i := .readSegment p seg offset count) rfl]
    exact h
  refine ⟨State.readOn { s.took (.readSegment p seg offset count) with ports := ps } p seg offset.toNat count.toNat, ?_,
    congrArg Host.Outcome.next ((hact _).trans (readOn_judged _ p seg _ _))⟩
  generalize s.took _ = w at ho hunread
  obtain ⟨hevents, henable, hprst, hout, hoverrun, hlost⟩ := w.opened_port p
  have hother := w.opened_port_other p
  rw [ho] at hunread hevents henable hprst hout hoverrun hlost hother
  have hcheck : w.readCheck p (segOf seg) offset.toNat count.toNat
      = State.readCheck { w with ports := ps } p (segOf seg) offset.toNat count.toNat := rfl
  unfold State.readOn
  rw [← hcheck]
  refine readSegmentRule_of rfl (fun e he => ?_) fun rb hrb => ?_
  · rw [he]
    exact respond_refused ho _ _ _
  · rw [hrb]
    dsimp only
    generalize ht : State.readTaken _ p rb = t
    have hport : t.port p = { State.port { w with ports := ps } p with proto := .executing } := by
      rw [← ht]
      exact State.setPort_port_self _ _ _
    unfold OnlyAnswer SameLine
    rw [hport]
    subst ht
    exact ⟨⟨⟨henable, hprst, hout⟩, hevents, (State.setPort_port_other _ _ _).trans hother⟩, rfl, hunread, hoverrun,
      hlost, State.setLoad_loadUnit_self _ _ _, State.setLoad_loadUnit_other _ _ _, rfl⟩

end Sys2Proof.Machine
end

section
/-! ## Loads ended and segments deleted or released (R26, R27, R30, R31, R47) -/

namespace Sys2Proof.Machine

/-! ### What the ports' records play no part in -/

theorem State.givePages_ports (s : State) (ps : PerPort PortRec) (l : List PageNo) :
    State.givePages { s with ports := ps } l = { s.givePages l with ports := ps } := by
  induction l generalizing s with
  | nil => rfl
  | cons n r ih =>
    have hn : State.givePage { s with ports := ps } n = { s.givePage n with ports := ps } := by
      rw [State.givePage_eq, State.givePage_eq]
      change (if (s.page n).suspect = true then _ else _) = _
      split <;> rfl
    rw [State.givePages_cons, hn, ih]
    rfl

/-- A segment's freeing does not look at the ports' records. -/
theorem State.freeSegment_with_ports (s : State) (ps : PerPort PortRec) (i : SegId) :
    State.freeSegment { s with ports := ps } i = { s.freeSegment i with ports := ps } := by
  have hpages : State.givePages { s with ports := ps } (State.seg { s with ports := ps } i).pages =
      { s.givePages (s.seg i).pages with ports := ps } := s.givePages_ports ps _
  rw [State.freeSegment_spec, State.freeSegment_spec, hpages]
  rfl

theorem State.loadEnded_ports (s : State) (ps : PerPort PortRec) (i : SegId) (p : Port) :
    State.loadEnded { s with ports := ps } i p = { s.loadEnded i p with ports := ps } := by
  unfold State.loadEnded
  change State.setLoad (State.setSeg (State.givePages { s with ports := ps } (s.seg i).pages) i .freed) p _ = _
  rw [s.givePages_ports]
  rfl

/-! ### Entries release segments (R31, R47) -/

theorem State.raiseFreed_port (s : State) (i : SegId) (o : Option Port) (p : Port) :
    (s.raiseFreed i o).port p = { s.port p with
      events := if o = some p then raiseIn (s.port p).events .device .segmentFreed (.segment i)
        else (s.port p).events } := by
  cases o with
  | none => rfl
  | some q =>
    refine (State.setPort_port _ _ _ _).trans ?_
    by_cases h : p = q
    · rw [if_pos h, h, if_pos rfl]
    · rw [if_neg h, if_neg fun e => h (Option.some.inj e).symm]

theorem State.raiseFreed_ports (s : State) (i : SegId) (o : Option Port) :
    ∃ ps, s.raiseFreed i o = { s with ports := ps } := by
  cases o <;> exact ⟨_, rfl⟩

theorem releaseSegment_rule (s : State) (i : SegId) : ReleaseRule s (s.releaseSegment i) i := by
  unfold ReleaseRule State.releaseSegment
  dsimp only
  split
  case isTrue =>
    have hport := s.raiseFreed_port i (s.seg i).owner
    obtain ⟨ps, hps⟩ := s.raiseFreed_ports i (s.seg i).owner
    rw [hps] at hport ⊢
    rw [s.freeSegment_with_ports]
    refine ⟨hport, ?_⟩
    change { s.freeSegment i with ports := s.ports } = s.freeSegment i
    rw [← s.freeSegment_ports i]
  case isFalse => exact ⟨s.setSeg_seg_self _ _, fun j hj => s.setSeg_seg_ne _ hj, rfl⟩

/-- Settles O23: a release frees the segment or lowers its count; a list's releases are made one after another. -/
theorem entriesRelease : Obligations.EntriesRelease := by
  refine ⟨releaseSegment_rule, fun s e l => ⟨rfl, ?_⟩, fun _ => rfl⟩
  change (if s.releaseFrees e.seg = true then e.seg :: _ else _) = _
  unfold State.releaseFrees
  simp only [← Bool.decide_and, decide_eq_true_eq]
  split <;> rfl

/-! ### DELETE-SEGMENT (R30) -/

/-- The six cases of DELETE-SEGMENT in the order of the rule. -/
theorem deleteOn_eq (s : State) (p : Port) (i : SegId) :
    s.deleteOn p i =
      if (s.seg i).state = .free then .error .segmentState
      else if (s.seg i).owner ≠ some p then .error .notOwner
      else if (s.seg i).state = .loading then .error .segmentState
      else if (s.seg i).state = .doomed then .ok s
      else if (s.seg i).refs = 0 then .ok (s.freeSegment i)
      else .ok (s.setSeg i { s.seg i with state := .doomed }) := by
  unfold State.deleteOn
  dsimp only
  cases hst : (s.seg i).state <;> by_cases ho : (s.seg i).owner = some p <;> simp [ho]

/-- DELETE-SEGMENT before a cancelled readback is answered. -/
def State.deleteAnswered (s : State) (p : Port) (seg : Byte) : State :=
  match s.deleteOn p (segOf seg) with
  | .error e => s.respond p Code.deleteSegment e [seg]
  | .ok t => t.respond p Code.deleteSegment .ok
      (seg :: (t.seg (segOf seg)).state.code :: putWord (t.seg (segOf seg)).refs)

theorem deleteAnswered_of_error {s : State} {p : Port} {seg : Byte} {e : Status}
    (h : s.deleteOn p (segOf seg) = .error e) : s.deleteAnswered p seg = s.respond p Code.deleteSegment e [seg] := by
  unfold State.deleteAnswered
  rw [h]

theorem deleteAnswered_of_ok {s t : State} {p : Port} {seg : Byte} {r : SegRec}
    (h : s.deleteOn p (segOf seg) = .ok t) (hr : t.seg (segOf seg) = r) :
    s.deleteAnswered p seg = t.respond p Code.deleteSegment .ok (seg :: r.state.code :: putWord r.refs) := by
  unfold State.deleteAnswered
  rw [h, ← hr]

theorem deleteAnswered_rule {s : State} {p : Port} {ps : PerPort PortRec} (ho : s.opened p = { s with ports := ps })
    (seg : Byte) : DeleteRule s (State.deleteAnswered { s with ports := ps } p seg) p seg := by
  have hrefused := respond_refused ho Code.deleteSegment
  have hcase := deleteOn_eq { s with ports := ps } p (segOf seg)
  have hseg : State.seg { s with ports := ps } (segOf seg) = s.seg (segOf seg) := rfl
  rw [hseg] at hcase
  unfold DeleteRule
  dsimp only
  by_cases hfree : (s.seg (segOf seg)).state = .free
  · rw [if_pos hfree] at hcase ⊢
    exact deleteAnswered_of_error hcase ▸ hrefused _ _
  rw [if_neg hfree] at hcase ⊢
  by_cases howner : (s.seg (segOf seg)).owner ≠ some p
  · rw [if_pos howner] at hcase ⊢
    exact deleteAnswered_of_error hcase ▸ hrefused _ _
  rw [if_neg howner] at hcase ⊢
  by_cases hloading : (s.seg (segOf seg)).state = .loading
  · rw [if_pos hloading] at hcase ⊢
    exact deleteAnswered_of_error hcase ▸ hrefused _ _
  rw [if_neg hloading] at hcase ⊢
  by_cases hdoomed : (s.seg (segOf seg)).state = .doomed
  · rw [if_pos hdoomed] at hcase ⊢
    rw [deleteAnswered_of_ok hcase hseg, hdoomed]
    exact hrefused _ _
  rw [if_neg hdoomed] at hcase ⊢
  by_cases hrefs : (s.seg (segOf seg)).refs = 0
  · rw [if_pos hrefs] at hcase ⊢
    rw [deleteAnswered_of_ok (r := .freed) hcase (by simp), s.freeSegment_with_ports]
    obtain ⟨hanswered, honly⟩ := respond_answered (v := { s.freeSegment (segOf seg) with ports := ps }) ho rfl
      Code.deleteSegment .ok (seg :: 0#8 :: putWord 0)
    refine ⟨hanswered, honly, ?_⟩
    change { s.freeSegment (segOf seg) with ports := s.ports } = s.freeSegment (segOf seg)
    rw [← s.freeSegment_ports (segOf seg)]
  · rw [if_neg hrefs] at hcase ⊢
    rw [deleteAnswered_of_ok hcase (State.setSeg_seg_self _ _ _)]
    obtain ⟨hanswered, honly⟩ := respond_answered (v := State.setSeg { s with ports := ps } (segOf seg)
      { s.seg (segOf seg) with state := .doomed }) ho rfl Code.deleteSegment .ok
      (seg :: 3#8 :: putWord (s.seg (segOf seg)).refs)
    exact ⟨hanswered, honly, State.setSeg_seg_self _ _ _, fun j hj => State.setSeg_seg_ne _ _ hj, rfl⟩

/-- Settles O13: a refusal cancels no readback, so that answering cancelled readbacks after it changes nothing. -/
theorem deletesSegments : Obligations.DeletesSegments := by
  intro s p seg hlaw hl
  obtain ⟨ps, ho, hact⟩ := frame_acts (i := .deleteSegment p seg) rfl hl
  refine ⟨State.deleteAnswered { s.took (.deleteSegment p seg) with ports := ps } p seg,
    congrArg Host.Outcome.next ((hact _).trans ?_), deleteAnswered_rule ho seg⟩
  have hnone : ∀ q r, ((s.took (.deleteSegment p seg)).loadUnit q).readback = some r → r.mark ≠ .cancelled :=
    fun q r hr => ((hlaw q).2.2 r hr).1
  generalize s.took _ = w at hnone
  dsimp only
  split
  · rename_i e he
    rw [deleteAnswered_of_error he]
    exact (State.settleCancelled_of_none (State.respond { w with ports := ps } p _ _ _) hnone).symm
  · rename_i t ht
    rw [deleteAnswered_of_ok ht rfl]

/-! ### ABORT-LOAD (R27) -/

/-- An open load aborted: it ends, or waits for its write burst; a drain request is withdrawn. -/
theorem State.abortOpen_whole {s : State} {p : Port} {i : SegId} (hi : (s.loadUnit p).seg = some i)
    (hq : ∀ q r, (s.loadUnit q).readback = some r → r.seg = i → r.mark ≠ .live) :
    s.abortOpen p =
      { (match s.drainInFlight p with
          | none => s.loadEnded i p
          | some b => s.setLoad p
              { s.loadUnit p with phase := .aborting, buffer := (s.loadUnit p).buffer.take b.count }) with
        arb := if s.drainRequest p then s.arb.cleared p else s.arb } := by
  obtain ⟨a, ha, hs⟩ : ∃ a : Arbiter, a = (if s.drainRequest p then s.arb.cleared p else s.arb)
      ∧ (if s.drainRequest p then s.setPassOver p 0 else s) = { s with arb := a } := by
    split
    · exact ⟨_, rfl, rfl⟩
    · exact ⟨_, rfl, rfl⟩
  unfold State.abortOpen
  rw [hs, ← ha]
  cases s.drainInFlight p with
  | some b => rfl
  | none =>
    have hend : State.endLoad { s with arb := a } p = State.loadEnded { s with arb := a } i p :=
      State.endLoad_quiet (s := { s with arb := a }) hi hq
    dsimp only
    rw [hend, s.loadEnded_arb]

theorem withdrawnRule_of_arb {s t : State} {p : Port} {w : Bool} (h : t.arb = if w then s.arb.cleared p else s.arb) :
    WithdrawnRule s t p w := by
  unfold WithdrawnRule
  rw [h]
  cases w
  · exact ⟨rfl, rfl, rfl, rfl⟩
  · exact ⟨PerPort.get_set_self _ _ _, PerPort.get_set_other _ _ _, rfl, rfl⟩

/-- ABORT-LOAD of an open load. -/
theorem abortOpen_rule {s : State} {p : Port} {ps : PerPort PortRec} {i : SegId}
    (ho : s.opened p = { s with ports := ps }) (hlaw : s.LoadLaw) (hphase : (s.loadUnit p).phase = .opened)
    (hi : (s.loadUnit p).seg = some i) :
    AbortLoadRule s ((State.abortOpen { s with ports := ps } p).respond p Code.abortLoad .ok
      [if (s.drainInFlight p).isSome then 1#8 else 0#8]) p := by
  have hq := loadLaw_quiet hlaw hi
  have hwhole := State.abortOpen_whole (s := { s with ports := ps }) hi hq
  have hdrain : State.drainInFlight { s with ports := ps } p = s.drainInFlight p := rfl
  have hunit : State.loadUnit { s with ports := ps } p = s.loadUnit p := rfl
  rw [hdrain, hunit, s.loadEnded_ports] at hwhole
  unfold AbortLoadRule
  dsimp only
  rw [hphase, hi]
  dsimp only
  cases hd : s.drainInFlight p with
  | none =>
    rw [hd] at hwhole
    dsimp only at hwhole
    have hfree := s.freeSegment_quiet i hq
    obtain ⟨pg, fl, rt, hg⟩ := s.givePages_eq (s.seg i).pages
    unfold State.loadEnded at hwhole
    rw [hg] at hwhole hfree
    rw [hwhole, hfree]
    obtain ⟨hanswered, honly⟩ := respond_answered (v := State.abortOpen { s with ports := ps } p) ho
      (by rw [hwhole]) Code.abortLoad .ok [0#8]
    rw [hwhole] at hanswered honly
    exact ⟨honly, withdrawnRule_of_arb rfl, State.setLoad_loadUnit_other _ _ _, hanswered,
      State.setLoad_loadUnit_self _ _ _, State.setSeg_seg_self _ _ _, fun j hj => State.setSeg_seg_ne _ _ hj, rfl⟩
  | some b =>
    rw [hd] at hwhole
    dsimp only at hwhole
    obtain ⟨hanswered, honly⟩ := respond_answered (v := State.abortOpen { s with ports := ps } p) ho
      (by rw [hwhole]; rfl) Code.abortLoad .ok [1#8]
    rw [hwhole] at hanswered honly ⊢
    refine ⟨honly, withdrawnRule_of_arb rfl, PerPort.get_set_other _ _ _, hanswered, ?_, rfl⟩
    exact (PerPort.get_set_self _ _ _).trans (by rw [hi])

/-- The laws of loads do not look at the bytes clocked. -/
theorem State.took_loadLaw {s : State} (i : Instr) (h : s.LoadLaw) : (s.took i).LoadLaw := by
  rw [← s.took_rest i] at h
  exact h

/-- Settles O12: with no load or an aborted one the command only answers; an open load has a segment (R21). -/
theorem abortsLoads : Obligations.AbortsLoads := by
  intro s p hlaw hl
  obtain ⟨ps, ho, hact⟩ := frame_acts (i := .abortLoad p) rfl hl
  refine ⟨_, congrArg Host.Outcome.next (hact _), ?_⟩
  have hlaw := s.took_loadLaw (.abortLoad p) hlaw
  generalize s.took _ = w at ho hlaw
  have hrefused := respond_refused ho Code.abortLoad
  have hunit : State.loadUnit { w with ports := ps } p = w.loadUnit p := rfl
  dsimp only
  rw [hunit]
  cases hphase : (w.loadUnit p).phase with
  | noLoad | aborting =>
    unfold AbortLoadRule
    dsimp only
    rw [hphase]
    exact hrefused _ _
  | opened =>
    obtain ⟨i, hi⟩ := loadLaw_seg hlaw (p := p) (by rw [hphase]; decide)
    exact abortOpen_rule ho hlaw hphase hi

end Sys2Proof.Machine
end

section
/-! ## CLOSE-LOAD (R26) -/

namespace Sys2Proof.Machine

/-- A load of the declared length closed. -/
theorem closeOn_full {s : State} {p : Port} {i : SegId} {d : Nat} (hd : (s.seg i).declared.getD 0 = d)
    (h : (s.loadUnit p).received = d) :
    s.closeOn p i = ((s.setSeg i { s.seg i with state := .ready, length := some d }).setLoad p (s.loadUnit p).closed,
      .ok, d, 0) := by
  unfold State.closeOn
  dsimp only
  rw [hd, if_pos h]
  rfl

/-- A load too short to be kept, whose segment no live readback reads, ended. -/
theorem closeOn_tooShort {s : State} {p : Port} {i : SegId} (h : (s.loadUnit p).received ≠ (s.seg i).declared.getD 0)
    (hr : (s.loadUnit p).received < 16)
    (hq : ∀ q r, (s.loadUnit q).readback = some r → r.seg = i → r.mark ≠ .live) :
    s.closeOn p i = (s.loadEnded i p, .tooShort, 0, (s.seg i).pages.length) := by
  unfold State.closeOn State.loadEnded
  dsimp only
  rw [if_neg h, if_pos hr, s.freeSegment_quiet i hq]
  obtain ⟨_, _, _, hg⟩ := s.givePages_eq (s.seg i).pages
  rw [hg]
  rfl

/-- The segment of a shorter load closed, its pages past the received samples cut off. -/
def State.closedShort (s : State) (p : Port) (i : SegId) : State :=
  let keep := ((s.loadUnit p).received + 255) / 256
  ((s.givePages ((s.seg i).pages.drop keep)).setSeg i { s.seg i with
    state := .ready, length := some (s.loadUnit p).received, pages := (s.seg i).pages.take keep }).setLoad p
      (s.loadUnit p).closed

theorem State.givePages_segs (s : State) (sg : Vector SegRec 256) (l : List PageNo) :
    State.givePages { s with segs := sg } l = { s.givePages l with segs := sg } := by
  induction l generalizing s with
  | nil => rfl
  | cons n r ih =>
    have hn : State.givePage { s with segs := sg } n = { s.givePage n with segs := sg } := by
      rw [State.givePage_eq, State.givePage_eq]
      change (if (s.page n).suspect = true then _ else _) = _
      split <;> rfl
    rw [State.givePages_cons, hn, ih]
    rfl

/-- A shorter load closed. -/
theorem closeOn_short {s : State} {p : Port} {i : SegId} (h : (s.loadUnit p).received ≠ (s.seg i).declared.getD 0)
    (hr : ¬ (s.loadUnit p).received < 16) :
    s.closeOn p i = (s.closedShort p i, .short, (s.loadUnit p).received,
      ((s.seg i).pages.drop (((s.loadUnit p).received + 255) / 256)).length) := by
  unfold State.closeOn State.closedShort
  dsimp only
  rw [if_neg h, if_neg hr, show pagesFor (s.loadUnit p).received = ((s.loadUnit p).received + 255) / 256 from rfl]
  have hg : State.givePages (s.setSeg i { s.seg i with
      state := .ready, length := some (s.loadUnit p).received,
      pages := (s.seg i).pages.take (((s.loadUnit p).received + 255) / 256) })
        ((s.seg i).pages.drop (((s.loadUnit p).received + 255) / 256)) = _ := s.givePages_segs _ _
  rw [hg]
  obtain ⟨_, _, _, he⟩ := s.givePages_eq ((s.seg i).pages.drop (((s.loadUnit p).received + 255) / 256))
  rw [he]
  rfl

theorem State.closedShort_ports (s : State) (ps : PerPort PortRec) (p : Port) (i : SegId) :
    State.closedShort { s with ports := ps } p i = { s.closedShort p i with ports := ps } := by
  have hg := s.givePages_ports ps ((s.seg i).pages.drop (((s.loadUnit p).received + 255) / 256))
  unfold State.closedShort
  dsimp only
  change State.setLoad (State.setSeg (State.givePages { s with ports := ps }
    ((s.seg i).pages.drop (((s.loadUnit p).received + 255) / 256))) i _) p _ = _
  rw [hg]
  rfl

/-- The answer of a closed load. -/
def State.closeAnswered (s : State) (p : Port) (i : SegId) : State :=
  (s.closeOn p i).1.respond p Code.closeLoad (s.closeOn p i).2.1
    (byteOfNat i.val :: (putLongNat (s.closeOn p i).2.2.1 ++ putWord (s.closeOn p i).2.2.2))

/-- CLOSE-LOAD of an open load whose buffer is empty. -/
theorem closeAnswered_rule {s : State} {p : Port} {ps : PerPort PortRec} {i : SegId}
    (ho : s.opened p = { s with ports := ps }) (hlaw : s.LoadLaw) (hi : (s.loadUnit p).seg = some i)
    (hphase : (s.loadUnit p).phase ≠ .noLoad)
    (hbuffer : ¬ ((s.loadUnit p).phase = .aborting ∨ (s.loadUnit p).buffer ≠ [])) :
    CloseLoadRule s (State.closeAnswered { s with ports := ps } p i) p := by
  have hq := loadLaw_quiet hlaw hi
  unfold CloseLoadRule
  dsimp only
  rw [hi]
  dsimp only
  rw [if_neg hphase, if_neg hbuffer]
  unfold State.closeAnswered
  by_cases hfull : (s.loadUnit p).received = (s.seg i).declared.getD 0
  · rw [if_pos hfull, closeOn_full (s := { s with ports := ps }) rfl hfull]
    obtain ⟨hanswered, honly⟩ := respond_answered (v := State.setLoad (State.setSeg { s with ports := ps } i { s.seg i with
      state := .ready, length := some ((s.seg i).declared.getD 0) }) p (s.loadUnit p).closed) ho rfl Code.closeLoad .ok
      (byteOfNat i.val :: (putLongNat ((s.seg i).declared.getD 0) ++ putWord 0))
    exact ⟨honly, State.setLoad_loadUnit_self _ _ _, State.setLoad_loadUnit_other _ _ _, hanswered,
      State.setSeg_seg_self _ _ _, fun j hj => State.setSeg_seg_ne _ _ hj, rfl⟩
  rw [if_neg hfull]
  by_cases hshort : (s.loadUnit p).received < 16
  · rw [if_pos hshort, closeOn_tooShort (s := { s with ports := ps }) hfull hshort hq, s.loadEnded_ports]
    obtain ⟨hanswered, honly⟩ := respond_answered (v := { s.loadEnded i p with ports := ps }) ho rfl
      Code.closeLoad .tooShort (byteOfNat i.val :: (putLongNat 0 ++ putWord (s.seg i).pages.length))
    rw [s.freeSegment_quiet i hq]
    obtain ⟨pg, fl, rt, hg⟩ := s.givePages_eq (s.seg i).pages
    unfold State.loadEnded at hanswered honly ⊢
    rw [hg] at hanswered honly ⊢
    exact ⟨honly, State.setLoad_loadUnit_self _ _ _, State.setLoad_loadUnit_other _ _ _, hanswered,
      State.setSeg_seg_self _ _ _, rfl⟩
  · rw [if_neg hshort, closeOn_short (s := { s with ports := ps }) hfull hshort, s.closedShort_ports]
    obtain ⟨hanswered, honly⟩ := respond_answered (v := { s.closedShort p i with ports := ps }) ho rfl
      Code.closeLoad .short (byteOfNat i.val :: (putLongNat (s.loadUnit p).received
        ++ putWord ((s.seg i).pages.drop (((s.loadUnit p).received + 255) / 256)).length))
    obtain ⟨pg, fl, rt, hg⟩ := s.givePages_eq ((s.seg i).pages.drop (((s.loadUnit p).received + 255) / 256))
    unfold State.closedShort at hanswered honly ⊢
    dsimp only at hanswered honly ⊢
    rw [hg] at hanswered honly ⊢
    exact ⟨honly, State.setLoad_loadUnit_self _ _ _, State.setLoad_loadUnit_other _ _ _, hanswered,
      State.setSeg_seg_self _ _ _, fun j hj => State.setSeg_seg_ne _ _ hj, rfl⟩

/-- Settles O11: with no load, or one that is not open with its buffer empty, the command only answers. -/
theorem closesLoads : Obligations.ClosesLoads := by
  intro s p hlaw hl
  obtain ⟨ps, ho, hact⟩ := frame_acts (i := .closeLoad p) rfl hl
  refine ⟨_, congrArg Host.Outcome.next (hact _), ?_⟩
  have hlaw := s.took_loadLaw (.closeLoad p) hlaw
  generalize s.took _ = w at ho hlaw
  have hrefused := respond_refused ho Code.closeLoad
  have hunit : State.loadUnit { w with ports := ps } p = w.loadUnit p := rfl
  dsimp only
  rw [hunit]
  cases hi : (w.loadUnit p).seg with
  | none =>
    unfold CloseLoadRule
    dsimp only
    rw [hi]
    exact hrefused _ _
  | some i =>
    dsimp only
    by_cases hphase : (w.loadUnit p).phase = .noLoad
    · rw [if_pos hphase]
      unfold CloseLoadRule
      dsimp only
      rw [hi]
      dsimp only
      rw [if_pos hphase]
      exact hrefused _ _
    rw [if_neg hphase]
    by_cases hbuffer : (w.loadUnit p).phase = .aborting ∨ (w.loadUnit p).buffer ≠ []
    · rw [if_pos hbuffer]
      unfold CloseLoadRule
      dsimp only
      rw [hi]
      dsimp only
      rw [if_neg hphase, if_pos hbuffer]
      exact hrefused _ _
    rw [if_neg hbuffer]
    exact closeAnswered_rule ho hlaw hi hphase hbuffer

end Sys2Proof.Machine
end

section
/-! ## The Store Arbiter (R24, R35, R103, R104, R115 to R118) -/

namespace Sys2Proof.Machine

/-! ### The choice within a tier -/

/-- In a list in ascending order the first element with a value is the least one. -/
theorem findSome?_of_least {α β : Type} [LinearOrder α] {f : α → Option β} {a : α} {b : β} {l : List α}
    (hl : l.Pairwise (· < ·)) (ha : a ∈ l) (hb : f a = some b) (h : ∀ x, x < a → f x = none) :
    l.findSome? f = some b := by
  induction l with
  | nil => cases ha
  | cons x r ih =>
    obtain ⟨hx, hr⟩ := List.pairwise_cons.1 hl
    rcases List.mem_cons.1 ha with rfl | ha
    · rw [List.findSome?_cons, hb]
    · rw [List.findSome?_cons, h x (hx a ha)]
      exact ih hr ha

/-- The channel of a level that comes first from the rotation pointer is the level's choice (R117). -/
theorem State.pickLevel_of_first {s : State} {asks : ChanId → Bool} {c : ChanId} (h : s.First asks c) :
    s.pickLevel asks (s.chan c).stat.prio = some c := by
  obtain ⟨hasks, -, hfirst⟩ := h
  have hback : ∀ k d : ChanId, k + (d - k) = d := fun k d => add_sub_cancel k d
  unfold State.pickLevel
  generalize s.arb.rot.get (s.chan c).stat.prio = k at hfirst
  rw [List.find?_map, List.find?_eq_findSome?_guard, findSome?_of_least (a := c - k) (b := c - k)
    (List.sortedLT_finRange 8).pairwise (List.mem_finRange _) ?_ fun d hd => ?_, Option.map_some, hback]
  · simp [Option.guard, hback, hasks]
  · refine Option.guard_eq_none_iff.2 ?_
    rw [Function.comp_apply, Bool.eq_false_iff]
    intro hx
    obtain ⟨hask, hprio⟩ := Bool.and_eq_true_iff.1 hx
    have hle := hfirst (k + d) hask (of_decide_eq_true hprio)
    rw [add_sub_cancel_left] at hle
    exact absurd hd (not_lt.2 hle)

/-- Of the requesting channels the first one is chosen (R116). -/
theorem State.pickFetch_of_first {s : State} {asks : ChanId → Bool} {c : ChanId} (h : s.First asks c) :
    s.pickFetch asks = some c := by
  refine findSome?_of_least (List.sortedLT_finRange 4).pairwise (List.mem_finRange _) (State.pickLevel_of_first h)
    fun level hlevel => ?_
  obtain ⟨-, hprio, -⟩ := h
  refine List.find?_eq_none.2 fun d _ hd => ?_
  obtain ⟨hasks, hlow⟩ := Bool.and_eq_true_iff.1 hd
  exact absurd (of_decide_eq_true hlow ▸ hprio d hasks) (not_le.2 hlevel)

theorem State.pickFetch_of_none {s : State} {asks : ChanId → Bool} (h : ∀ c, asks c = false) :
    s.pickFetch asks = none := by
  refine List.findSome?_eq_none_iff.2 fun level _ => List.find?_eq_none.2 fun d _ => ?_
  simp [h d]

theorem Port.eq_or_other (p q : Port) : p = q ∨ p = q.other := by
  cases p <;> cases q <;> decide

theorem State.pickPort_of_first {s : State} {asks : Port → Bool} {p : Port} (h : s.FirstPort asks p) :
    s.pickPort asks = some p := by
  obtain ⟨hasks, hother⟩ := h
  unfold State.pickPort
  rcases Port.eq_or_other p s.arb.lastServed with hp | hp
  · rw [hp] at hasks hother
    rw [if_neg fun ho => ?_, if_pos hasks, hp]
    have := hother ho
    cases hs : s.arb.lastServed <;> rw [hs] at this <;> cases this
  · rw [← hp, if_pos hasks]

theorem State.pickPort_of_none {s : State} {asks : Port → Bool} (h : ∀ p, asks p = false) : s.pickPort asks = none := by
  simp [State.pickPort, h]

/-! ### Requests (R24, R35, R104, R118) -/

theorem State.fetching_iff (s : State) (c : ChanId) :
    s.fetching c = true ↔ ∃ b, s.burst = some b ∧ b.requester = .fetcher c := by
  unfold State.fetching
  simp only [Option.isSome_iff_exists, ownBurst_eq]

theorem ChanState.playing_iff (k : ChanState) : k.playing = true ↔ k = .running ∨ k = .waiting ∨ k = .stopping := by
  cases k <;> decide

theorem fetchRequest_rule (s : State) (c : ChanId) : RequestRule s c := by
  have hown : (!s.fetching c) = true ↔ ∀ b, s.burst = some b → b.requester ≠ .fetcher c := by
    rw [Bool.not_eq_true', ← Bool.not_eq_true, s.fetching_iff]
    simp
  refine ⟨?_, ?_⟩
  · unfold State.fetchRequest
    simp only [Bool.and_eq_true, hown, Option.isSome_iff_ne_none, and_assoc]
    split <;> simp [*]
  · unfold State.urgent
    simp only [Bool.and_eq_true, ChanState.playing_iff, decide_eq_true_eq, and_assoc]

theorem State.loadBurst_isNone_iff (s : State) (p : Port) :
    (s.loadBurst p).isNone = true ↔ ¬ ∃ b, s.burst = some b ∧ b.requester = .loadUnit p := by
  simp only [← s.loadBurst_eq_some p, ← Option.isSome_iff_exists]
  cases s.loadBurst p <;> simp

theorem portRequest_rule (s : State) (p : Port) : PortRequestRule s p := by
  refine ⟨?_, ?_, ?_, ?_⟩
  · unfold State.drainRequest
    simp only [Bool.and_eq_true, s.loadBurst_isNone_iff, decide_eq_true_eq, Bool.not_eq_true', and_assoc,
      List.isEmpty_eq_false_iff]
  · unfold State.readRequest
    cases hr : (s.loadUnit p).readback with
    | none => simp
    | some r =>
      simp only [Bool.and_eq_true, s.loadBurst_isNone_iff, decide_eq_true_eq, List.isEmpty_iff, and_assoc]
      simp
  · exact Bool.or_eq_true_iff
  · unfold State.aged
    simp only [Bool.and_eq_true, decide_eq_true_eq]

/-! ### The four tiers (R116) -/

theorem State.chosen_urgent {s : State} {c : ChanId} (h : s.First s.urgent c) : s.chosen = some (.fetcher c) := by
  unfold State.chosen
  rw [State.pickFetch_of_first h]

theorem State.chosen_aged {s : State} {p : Port} (hurgent : ∀ c, s.urgent c = false) (h : s.FirstPort s.aged p) :
    s.chosen = some (.loadUnit p) := by
  unfold State.chosen
  rw [State.pickFetch_of_none hurgent, State.pickPort_of_first h]

theorem State.chosen_fetch {s : State} {c : ChanId} (hurgent : ∀ c, s.urgent c = false) (haged : ∀ p, s.aged p = false)
    (h : s.First s.fetchRequest c) : s.chosen = some (.fetcher c) := by
  unfold State.chosen
  rw [State.pickFetch_of_none hurgent, State.pickPort_of_none haged, State.pickFetch_of_first h]

theorem State.urgent_of_fetchRequest {s : State} (h : ∀ c, s.fetchRequest c = false) (c : ChanId) :
    s.urgent c = false := by
  unfold State.urgent
  rw [h c]
  rfl

theorem State.chosen_port {s : State} {p : Port} (hfetch : ∀ c, s.fetchRequest c = false)
    (haged : ∀ p, s.aged p = false) (h : s.FirstPort s.portRequest p) : s.chosen = some (.loadUnit p) := by
  unfold State.chosen
  rw [State.pickFetch_of_none (State.urgent_of_fetchRequest hfetch), State.pickPort_of_none haged,
    State.pickFetch_of_none hfetch, State.pickPort_of_first h]
  rfl

theorem State.chosen_none {s : State} (h : s.anyRequest = false) : s.chosen = none := by
  unfold State.anyRequest at h
  obtain ⟨hfetch, hb⟩ := Bool.or_eq_false_iff.1 h
  obtain ⟨hfetch, ha⟩ := Bool.or_eq_false_iff.1 hfetch
  have hfetch : ∀ c, s.fetchRequest c = false := fun c =>
    Bool.eq_false_iff.2 (List.any_eq_false.1 hfetch c (List.mem_finRange c))
  have hport : ∀ p, s.portRequest p = false := fun p => by
    cases p
    exacts [ha, hb]
  have haged : ∀ p, s.aged p = false := fun p => by
    unfold State.aged
    rw [hport p]
    rfl
  unfold State.chosen
  rw [State.pickFetch_of_none (State.urgent_of_fetchRequest hfetch), State.pickPort_of_none haged,
    State.pickFetch_of_none hfetch, State.pickPort_of_none hport]
  rfl

/-! ### Grants -/

theorem arbitrate_fetcher {s : State} {c : ChanId} (hfree : s.burst = none) (hr : s.chosen = some (.fetcher c)) :
    s.arbitrate = { s.grantFetch c with arb := s.arbAfter (.fetcher c) } := by
  simp only [State.arbitrate, hfree, hr]

theorem arbitrate_loadUnit {s : State} {p : Port} (hfree : s.burst = none) (hr : s.chosen = some (.loadUnit p)) :
    s.arbitrate = { s.grantLoad p with arb := s.arbAfter (.loadUnit p) } := by
  simp only [State.arbitrate, hfree, hr]

theorem grantedRule_of_arb {s t : State} {r : Requester} (h : t.arb = s.arbAfter r) : GrantedRule s t r := by
  unfold GrantedRule
  rw [h]
  refine ⟨fun k => ?_, fun p => ?_, ?_⟩
  · cases r with
    | loadUnit p => rfl
    | fetcher c =>
      refine (get_set_vector _ _ _ _).trans ?_
      simp only [eq_comm]
  · cases p <;> rfl
  · cases r <;> rfl

theorem cursorPastPass_rule (k : Chan) (cur : Cursor) : PastPassRule k (k.cursorPastPass cur) cur := by
  unfold PastPassRule Chan.cursorPastPass Chan.entryAt
  cases k.target with
  | some j => rfl
  | none =>
    cases k.list[cur.entry.val]? with
    | none => rfl
    | some e =>
      dsimp only
      simp only [Entry.morePasses, ← Bool.decide_or, decide_eq_true_eq]
      split
      · rfl
      · cases successor k.list cur.entry with
        | some j => rfl
        | none =>
          dsimp only
          simp only [Chan.loops, ← Bool.decide_and, decide_eq_true_eq]

theorem moveCursor_rule (k : Chan) (cur : Cursor) (n L : Nat) : MoveRule k (k.moveCursor cur n L) cur n L := by
  unfold MoveRule Chan.moveCursor
  split
  · rfl
  · exact cursorPastPass_rule k cur

theorem grantFetch_rule (s : State) (c : ChanId) (a : Arbiter) :
    InFlightRule s { s.grantFetch c with arb := a } (.fetcher c) := by
  intro cur e hcur he
  have hgrant : s.grantFetch c = { s.setChan c ((s.chan c).moveCursor cur
      (fetchBurst c (s.seg e.seg) e cur (s.chan c).fifo.length).count ((s.seg e.seg).length.getD 0)) with
      burst := some (fetchBurst c (s.seg e.seg) e cur (s.chan c).fifo.length) } := by
    unfold State.grantFetch Chan.entryAt
    dsimp only
    rw [hcur]
    dsimp only
    rw [he]
  rw [hgrant]
  refine ⟨rfl, ?_, fun d hd => State.setChan_chan_ne s _ hd, rfl⟩
  have hself := s.setChan_chan_self c ((s.chan c).moveCursor cur
    (fetchBurst c (s.seg e.seg) e cur (s.chan c).fifo.length).count ((s.seg e.seg).length.getD 0))
  change MoveRule (s.chan c) ((s.setChan c _).chan c) cur _ _
  rw [hself]
  exact moveCursor_rule _ _ _ _

theorem grantLoad_rule (s : State) (p : Port) (a : Arbiter) :
    InFlightRule s { s.grantLoad p with arb := a } (.loadUnit p) := by
  unfold InFlightRule State.grantLoad
  dsimp only
  split
  · refine ⟨?_, fun i hi => ?_⟩
    · split <;> rfl
    · rw [hi]
  · refine ⟨?_, fun rb hrb => ?_⟩
    · split <;> rfl
    · rw [hrb]

/-! ### The sizes of bursts -/

theorem fetchBurst_rule (c : ChanId) (r : SegRec) (e : Entry) (cur : Cursor) {n L : Nat} (hL : r.length = some L)
    (hcur : cur.index < L) (hn : n < 64) :
    let b := fetchBurst c r e cur n
    let k := if e.reversed cur.pass then L - 1 - cur.index else cur.index
    b.requester = .fetcher c ∧ b.write = false ∧ b.keep = true ∧ b.page = r.pages.getD (k / 256) 0
      ∧ b.first = k % 256 ∧ b.ascending = !e.reversed cur.pass
      ∧ 1 ≤ b.count ∧ b.count ≤ 32 ∧ b.count ≤ L - cur.index ∧ b.count ≤ 64 - n ∧ b.inPage
      ∧ (b.count = 32 ∨ b.count = L - cur.index ∨ b.count = 64 - n
          ∨ b.count = if e.reversed cur.pass then k % 256 + 1 else 256 - k % 256) := by
  intro b k
  have hcount : b.count = min (min 32 (if e.reversed cur.pass then k % 256 + 1 else 256 - k % 256))
      (min (L - cur.index) (64 - n)) := by
    simp only [b, k, fetchBurst, storedIndex, hL, Option.getD_some]
  have hroom : 1 ≤ if e.reversed cur.pass then k % 256 + 1 else 256 - k % 256 := by
    split <;> omega
  refine ⟨rfl, rfl, rfl, ?_, ?_, rfl, ?_, ?_, ?_, ?_, fetchBurst_inPage c r e cur n, ?_⟩
  · simp only [b, k, fetchBurst, storedIndex, hL, Option.getD_some, SegRec.pageOf]
  · simp only [b, k, fetchBurst, storedIndex, hL, Option.getD_some]
  all_goals
    rw [hcount]
    omega

theorem drainBurst_rule (p : Port) (r : SegRec) {u : LoadUnit} (hu : u.buffer ≠ []) :
    let b := drainBurst p r u
    b.requester = .loadUnit p ∧ b.write = true ∧ b.page = r.pages.getD (u.wpos / 256) 0 ∧ b.first = u.wpos % 256
      ∧ b.ascending = true ∧ b.count = min 32 (min u.buffer.length (256 - u.wpos % 256)) ∧ 1 ≤ b.count
      ∧ b.values = u.buffer.take b.count ∧ b.inPage := by
  have hlen := List.length_pos_iff.2 hu
  refine ⟨rfl, rfl, rfl, rfl, rfl, rfl, ?_, rfl, drainBurst_inPage p r u⟩
  dsimp only [drainBurst]
  omega

theorem readBurst_rule (p : Port) (r : SegRec) {rb : Readback} (h : 0 < rb.remaining) :
    let b := readBurst p r rb
    b.requester = .loadUnit p ∧ b.write = false ∧ b.page = r.pages.getD (rb.next / 256) 0
      ∧ b.first = rb.next % 256 ∧ b.ascending = true
      ∧ b.count = min 32 (min rb.remaining (256 - rb.next % 256)) ∧ 1 ≤ b.count ∧ b.inPage := by
  refine ⟨rfl, rfl, rfl, rfl, rfl, rfl, ?_, readBurst_inPage p r rb⟩
  dsimp only [readBurst]
  omega

/-- Settles O50: the tiers one by one, then what a grant does, when requests stand, and the sizes of bursts. -/
theorem arbiterDecides : Obligations.ArbiterDecides := by
  refine ⟨fun s => ⟨fun c => State.chosen_urgent, fun hurgent p => State.chosen_aged hurgent,
    fun hurgent haged c => State.chosen_fetch hurgent haged, fun hfetch haged p => State.chosen_port hfetch haged,
    State.chosen_none, fun b hb => ?_, fun hfree r hr => ?_, fetchRequest_rule s, portRequest_rule s⟩,
    fun c r e cur n L => fetchBurst_rule c r e cur, fun p r u => drainBurst_rule p r, fun p r rb => readBurst_rule p r⟩
  · unfold State.arbitrate
    rw [hb]
  · cases r with
    | fetcher c =>
      rw [arbitrate_fetcher hfree hr]
      exact ⟨grantedRule_of_arb rfl, grantFetch_rule s c _⟩
    | loadUnit p =>
      rw [arbitrate_loadUnit hfree hr]
      exact ⟨grantedRule_of_arb rfl, grantLoad_rule s p _⟩

end Sys2Proof.Machine
end

section
/-! ## What an event of one channel does to the channel's laws

The lane word (R99), the length of the FIFO (R102), the ranges (R41, R83, R84, R128, R138) and the marker units
(R133). -/

namespace Sys2Proof.Machine

/-! ### Marker units (R128 to R133) -/

/-- A marker unit with no pulse (R133). -/
def Marker.Silent (m : Marker) : Prop := m.active = false ∧ m.remaining = 0

theorem Marker.silence_silent (m : Marker) : m.silence.Silent := ⟨rfl, rfl⟩

theorem Marker.silence_law {m : Marker} (h : m.Law) : m.silence.Law := by
  obtain ⟨hlow, hhigh, hhyst, -, -, -⟩ := h
  exact ⟨hlow, hhigh, hhyst, Nat.zero_le _, fun _ => rfl, fun _ => rfl⟩

/-- A pulse started in a mode that has pulses (R130). -/
theorem Marker.pulse_law {m : Marker} (h : m.Law) (hm : m.mode = .entry ∨ m.mode = .pass) :
    ({ m with remaining := m.width } : Marker).Law := by
  obtain ⟨hlow, hhigh, hhyst, -, hoff, -⟩ := h
  refine ⟨hlow, hhigh, hhyst, hhigh, hoff, fun hx => ?_⟩
  rcases hm with e | e <;> simp [e] at hx

theorem Marker.pulseAtEntry_law {m : Marker} (h : m.Law) (flag : Bool) : (m.pulseAtEntry flag).Law := by
  unfold Marker.pulseAtEntry
  split
  case isTrue hp => exact Marker.pulse_law h (by simpa using (Bool.and_eq_true_iff.1 hp).2)
  case isFalse => exact h

theorem Marker.pulseAtPass_law {m : Marker} (h : m.Law) (flag : Bool) : (m.pulseAtPass flag).Law := by
  unfold Marker.pulseAtPass
  split
  case isTrue hp => exact Marker.pulse_law h (.inr (by simpa using (Bool.and_eq_true_iff.1 hp).2))
  case isFalse => exact h

theorem Marker.countTick_law {m : Marker} (h : m.Law) : m.countTick.Law := by
  obtain ⟨hlow, hhigh, hhyst, hrem, hoff, hzero⟩ := h
  unfold Marker.countTick
  split
  case isTrue hm =>
    split
    · refine ⟨hlow, hhigh, hhyst, ?_, fun hx => ?_, fun hx => ?_⟩
      · exact (Nat.sub_le _ _).trans hrem
      · rcases hm with e | e <;> simp [e] at hx
      · rcases hm with e | e <;> simp [e] at hx
    · exact ⟨hlow, hhigh, hhyst, hrem, fun _ => rfl, hzero⟩
  case isFalse => exact ⟨hlow, hhigh, hhyst, hrem, hoff, hzero⟩

/-- With nothing left to count a tick starts no pulse (R131). -/
theorem Marker.countTick_silent {m : Marker} (h : m.Silent) : m.countTick.Silent := by
  obtain ⟨ha, hr⟩ := h
  unfold Marker.countTick
  rw [if_neg (by omega : ¬ 0 < m.remaining)]
  split
  · exact ⟨rfl, hr⟩
  · exact ⟨ha, hr⟩

theorem Marker.compareLevel_law {m : Marker} (h : m.Law) (out threshold : Int) :
    (m.compareLevel out threshold).Law := by
  obtain ⟨hlow, hhigh, hhyst, hrem, hoff, hzero⟩ := h
  unfold Marker.compareLevel
  split
  case isTrue hm =>
    have hon : m.mode ≠ .off := by rw [hm]; decide
    split_ifs
    · exact ⟨hlow, hhigh, hhyst, hrem, fun hx => absurd hx hon, hzero⟩
    · exact ⟨hlow, hhigh, hhyst, hrem, fun _ => rfl, hzero⟩
    · exact ⟨hlow, hhigh, hhyst, hrem, hoff, hzero⟩
  case isFalse => exact ⟨hlow, hhigh, hhyst, hrem, hoff, hzero⟩

/-! ### What follows keeps the laws -/

/-- Both marker units are silent. -/
def Chan.Silent (k : Chan) : Prop := k.mk1.Silent ∧ k.mk2.Silent

/-- The ranges and the laws of the marker units of one channel. -/
def Chan.Sound (k : Chan) : Prop := k.RangeLaw ∧ k.MarkerLaw

theorem Chan.sound_iff (k : Chan) :
    k.Sound ↔ k.RangeLaw ∧ k.mk1.Law ∧ k.mk2.Law ∧ (k.state.playing = false → k.Silent) := by
  simp only [Chan.Sound, Chan.MarkerLaw, Chan.Silent, Marker.Silent, and_assoc]

/-- An event that makes channel k into x keeps the channel's laws and adds nothing to its FIFO. -/
structure Chan.Follows (k x : Chan) : Prop where
  lane : k.LaneLaw → x.LaneLaw
  fifo : x.fifo.length ≤ k.fifo.length
  sound : k.Sound → x.Sound

theorem Chan.Follows.refl (k : Chan) : k.Follows k := ⟨id, le_rfl, id⟩

theorem Chan.Follows.trans {k x y : Chan} (h : k.Follows x) (g : x.Follows y) : k.Follows y :=
  ⟨g.lane ∘ h.lane, g.fifo.trans h.fifo, g.sound ∘ h.sound⟩

/-- The same, for a step whose end is known before its middle. -/
theorem Chan.Follows.after {k x y : Chan} (g : x.Follows y) (h : k.Follows x) : k.Follows y := h.trans g

theorem Chan.Follows.of_parts {k x : Chan} (hlane : k.LaneLaw → x.LaneLaw) (hfifo : x.fifo.length ≤ k.fifo.length)
    (hrange : k.RangeLaw → x.RangeLaw) (hmk1 : k.mk1.Law → x.mk1.Law) (hmk2 : k.mk2.Law → x.mk2.Law)
    (hsilent : x.state.playing = false → (k.state.playing = false → k.Silent) → x.Silent) : k.Follows x := by
  refine ⟨hlane, hfifo, fun hk => ?_⟩
  obtain ⟨hr, h1, h2, hs⟩ := k.sound_iff.1 hk
  exact x.sound_iff.2 ⟨hrange hr, hmk1 h1, hmk2 h2, fun hx => hsilent hx hs⟩

/-- What the range law speaks of. -/
def Chan.ranges (k : Chan) : Nat × Nat × Option Nat × Nat × Nat × Nat :=
  (k.stat.divider, k.live.step, k.staged.step, k.totalUnder, k.clipCount, k.list.length)

theorem Chan.RangeLaw.congr {k x : Chan} (h : x.ranges = k.ranges) (hk : k.RangeLaw) : x.RangeLaw := by
  simp only [Chan.ranges, Prod.mk.injEq] at h
  obtain ⟨hdivider, hlive, hstaged, htotal, hclip, hlist⟩ := h
  unfold Chan.RangeLaw
  rw [hdivider, hlive, hstaged, htotal, hclip, hlist]
  exact hk

theorem Chan.LaneLaw.congr {k x : Chan} (h : (x.lane, x.out) = (k.lane, k.out)) (hk : k.LaneLaw) : x.LaneLaw := by
  obtain ⟨hlane, hout⟩ := Prod.mk.inj h
  unfold Chan.LaneLaw
  rw [hlane, hout]
  exact hk

theorem Chan.place_laneLaw (k : Chan) (v : Sample) : (k.place v).LaneLaw := by
  obtain ⟨hout, hlane, -⟩ := k.place_spec v
  unfold Chan.LaneLaw
  rw [hout, hlane]

/-- The fields that the laws of one channel speak of, its state and its FIFO apart. -/
def Chan.vitals (k : Chan) : (Half × Sample) × (Nat × Nat × Option Nat × Nat × Nat × Nat) × Marker × Marker :=
  ((k.lane, k.out), k.ranges, k.mk1, k.mk2)

/-- An event that leaves these fields alone, adds nothing to the FIFO and does not end play. -/
theorem Chan.Follows.of_vitals {k x : Chan} (h : x.vitals = k.vitals) (hfifo : x.fifo.length ≤ k.fifo.length)
    (hplay : x.state.playing = false → k.state.playing = false) : k.Follows x := by
  simp only [Chan.vitals, Prod.mk.injEq] at h
  obtain ⟨hlane, hrange, hmk1, hmk2⟩ := h
  refine .of_parts (.congr (Prod.ext hlane.1 hlane.2)) hfifo (.congr hrange) ?_ ?_ fun hx hk => ?_
  · rw [hmk1]
    exact id
  · rw [hmk2]
    exact id
  · unfold Chan.Silent
    rw [hmk1, hmk2]
    exact hk (hplay hx)

/-- An event in play that changes the marker units within their law. -/
theorem Chan.Follows.of_markers {k x : Chan} (hlane : (x.lane, x.out) = (k.lane, k.out)) (hrange : x.ranges = k.ranges)
    (hfifo : x.fifo.length ≤ k.fifo.length) (hplay : x.state.playing = true) (hmk1 : k.mk1.Law → x.mk1.Law)
    (hmk2 : k.mk2.Law → x.mk2.Law) : k.Follows x :=
  .of_parts (.congr hlane) hfifo (.congr hrange) hmk1 hmk2 fun hx => absurd (hplay.symm.trans hx) (by decide)

/-- The same of what an event works on. -/
def Work.Follows (w v : Work) : Prop := w.ch.Follows v.ch

theorem Work.Follows.of_ch {w v : Work} (h : w.ch.Follows v.ch) : w.Follows v := h

theorem Work.Follows.refl (w : Work) : w.Follows w := Chan.Follows.refl w.ch

theorem Work.Follows.trans {w v x : Work} (h : w.Follows v) (g : v.Follows x) : w.Follows x := Chan.Follows.trans h g

/-- The same, for a step whose end is known before its middle. -/
theorem Work.Follows.after {w v x : Work} (g : v.Follows x) (h : w.Follows v) : w.Follows x := h.trans g

/-- A condition chooses between two events. -/
theorem Work.Follows.ite {w v x : Work} {q : Prop} [Decidable q] (h : w.Follows v) (g : w.Follows x) :
    w.Follows (if q then v else x) := by
  split
  · exact h
  · exact g

/-- An event that touches none of the fields the laws speak of. -/
theorem Work.Follows.quiet {w v : Work} (h : v.ch.vitals = w.ch.vitals) (hfifo : v.ch.fifo = w.ch.fifo)
    (hplay : v.ch.state.playing = false → w.ch.state.playing = false) : w.Follows v :=
  .of_ch (.of_vitals h (hfifo ▸ le_rfl) hplay)

/-! ### Records, levels and flushes -/

theorem Chan.place_follows (k : Chan) (v : Sample) : k.Follows (k.place v) :=
  .of_parts (fun _ => k.place_laneLaw v) le_rfl (.congr rfl) id id fun hx hk => hk hx

theorem Work.raise_follows (w : Work) (k : Kind) : w.Follows (w.raise k) := .of_ch (.refl w.ch)

theorem Work.applyStaged_follows (w : Work) : w.Follows w.applyStaged := by
  rw [Work.applyStaged_spec]
  refine .ite (.refl _) (.of_ch (.of_parts (.congr rfl) le_rfl ?_ id id fun hx hk => hk hx))
  rintro ⟨hlow, hhigh, hslow, hshigh, hstaged, hcounts⟩
  have hstep : 1 ≤ w.ch.staged.step.getD w.ch.live.step ∧ w.ch.staged.step.getD w.ch.live.step ≤ 1048576 := by
    cases hs : w.ch.staged.step with
    | none => exact ⟨hslow, hshigh⟩
    | some n => exact hstaged n hs
  exact ⟨hlow, hhigh, hstep.1, hstep.2, nofun, hcounts⟩

theorem Work.startOfTick_follows (w : Work) : w.Follows w.startOfTick :=
  .ite (.after (Work.applyStaged_follows _) (.quiet rfl rfl id)) (.quiet rfl rfl id)

theorem Work.applyAtPass_follows (w : Work) : w.Follows w.applyAtPass := .ite w.applyStaged_follows (.refl _)

theorem Work.applyAtEntry_follows (w : Work) : w.Follows w.applyAtEntry := .ite w.applyStaged_follows (.refl _)

theorem Work.flush_follows (c : ChanId) (w : Work) : w.Follows (w.flush c) :=
  .of_ch (.of_vitals rfl (Nat.zero_le _) id)

theorem Work.refetchFrom_follows (c : ChanId) (t : EntryIx) (w : Work) : w.Follows (w.refetchFrom c t) :=
  .of_ch (.of_vitals rfl (Nat.zero_le _) id)

/-- The cursor and the pending target play no part in the laws. -/
theorem Chan.Follows.of_cursor {k x : Chan} (h : { x with cursor := k.cursor, target := k.target } = k) : k.Follows x :=
  .of_vitals (congrArg Chan.vitals h :) (congrArg (fun y : Chan => y.fifo.length) h :).le
    (congrArg (fun y : Chan => y.state.playing) h ▸ id)

theorem Chan.cursorPastPass_follows (k : Chan) (cur : Cursor) : k.Follows (k.cursorPastPass cur) :=
  .of_cursor (k.cursorPastPass_frame cur)

theorem Chan.moveCursor_follows (k : Chan) (cur : Cursor) (n L : Nat) : k.Follows (k.moveCursor cur n L) :=
  .of_cursor (k.moveCursor_frame cur n L)

/-! ### The FIFO (R106, R107, R110) -/

theorem dropBelow_length (i : Nat) (l : List Item) : (dropBelow i l).length ≤ l.length := by
  obtain ⟨run, hl, -⟩ := dropBelow_spec i l
  have h := congrArg List.length hl
  rw [List.length_append] at h
  omega

theorem afterPassRun_length {l rest : List Item} (h : afterPassRun l = some rest) : rest.length ≤ l.length := by
  obtain ⟨run, it, hl, -⟩ := afterPassRun_some h
  rw [hl, List.length_append, List.length_cons]
  omega

theorem passRun_length {l rest : List Item} (h : afterPassRun l = some rest) : (passRun l).length ≤ l.length := by
  obtain ⟨run, it, hl, -, -, hrun⟩ := afterPassRun_some h
  rw [hrun, hl]
  simp only [List.length_append, List.length_cons, List.length_nil]
  omega

theorem Work.consult_follows (w : Work) : w.Follows w.consult := .of_ch (.of_vitals rfl (dropBelow_length _ _) id)

theorem Work.dropPass_follows (c : ChanId) (w : Work) : w.Follows (w.dropPass c) := by
  unfold Work.dropPass
  split
  · rename_i r hr
    exact .of_ch (.of_vitals rfl (afterPassRun_length hr) id)
  · have hempty : w.ch.Follows { w.ch with fifo := [] } := .of_vitals rfl (Nat.zero_le _) id
    refine .of_ch ?_
    dsimp only
    split
    · exact hempty
    · split
      · exact hempty.trans (Chan.cursorPastPass_follows _ _)
      · exact hempty

theorem Work.jumpRedirect_follows (c : ChanId) (t : EntryIx) (w : Work) : w.Follows (w.jumpRedirect c t) := by
  unfold Work.jumpRedirect
  split
  · rename_i r hr
    exact .of_ch (.of_vitals rfl (passRun_length hr) id)
  · exact .ite (.quiet rfl rfl id) (.quiet rfl rfl id)

/-! ### The state of the channel -/

theorem Work.applyStaged_state (w : Work) : w.applyStaged.ch.state = w.ch.state :=
  (congrArg Chan.state w.applyStaged_frame.2 :)

theorem Work.startOfTick_state (w : Work) : w.startOfTick.ch.state = w.ch.state := by
  unfold Work.startOfTick
  dsimp only
  split
  · exact Work.applyStaged_state _
  · rfl

theorem Work.dropPass_state (c : ChanId) (w : Work) : (w.dropPass c).ch.state = w.ch.state := by
  unfold Work.dropPass
  split
  · rfl
  · dsimp only
    split
    · rfl
    · split
      · exact (congrArg Chan.state (Chan.cursorPastPass_frame _ _) :)
      · rfl

theorem Work.applyAtEntry_state (w : Work) : w.applyAtEntry.ch.state = w.ch.state := by
  unfold Work.applyAtEntry
  split
  · exact w.applyStaged_state
  · rfl

theorem Work.startEntry_state (w : Work) : w.startEntry.ch.state = w.ch.state := by
  refine (Work.applyAtEntry_state _).trans ?_
  dsimp only
  split <;> rfl

theorem Work.enterEntry_state (t : EntryIx) (carry : Nat) (w : Work) :
    (w.enterEntry t carry).ch.state = w.ch.state ∨ (w.enterEntry t carry).ch.state = .waiting := by
  unfold Work.enterEntry
  dsimp only
  split_ifs
  · exact .inl (Work.startEntry_state _)
  · exact .inl (Work.startEntry_state _)
  · exact .inr rfl

/-! ### The course of play -/

/-- Entering IDLE (R73) or HALTED (R76) silences both marker units (R133). -/
theorem Chan.Follows.of_silenced {k x : Chan} (hlane : k.LaneLaw → x.LaneLaw) (hrange : x.ranges = k.ranges)
    (hfifo : x.fifo.length ≤ k.fifo.length) (hmk1 : x.mk1 = k.mk1.silence) (hmk2 : x.mk2 = k.mk2.silence) :
    k.Follows x := by
  refine .of_parts hlane hfifo (.congr hrange) ?_ ?_ fun _ _ => ?_
  · rw [hmk1]
    exact Marker.silence_law
  · rw [hmk2]
    exact Marker.silence_law
  · unfold Chan.Silent
    rw [hmk1, hmk2]
    exact ⟨k.mk1.silence_silent, k.mk2.silence_silent⟩

theorem Work.enterIdle_follows (c : ChanId) (w : Work) : w.Follows (w.enterIdle c) := by
  unfold Work.enterIdle
  refine .after (Work.applyStaged_follows _) (.of_ch ?_)
  exact .of_silenced (.congr rfl) rfl (Nat.zero_le _) rfl rfl

theorem Work.halt_follows (c : ChanId) (cause : FaultCause) (w : Work) : w.Follows (w.halt c cause) := by
  unfold Work.halt
  refine .after (Work.applyStaged_follows _) (.of_ch ?_)
  dsimp only [Work.raise, Work.flush, Chan.place, Chan.silenceMarkers, Chan.clearLatches]
  exact .of_silenced (fun _ => .congr rfl (w.ch.place_laneLaw w.ch.stat.park)) rfl (Nat.zero_le _) rfl rfl

/-- An entry of a channel in play starts its pulses (R130). -/
theorem Work.startEntry_follows (w : Work) (hp : w.ch.state.playing = true) : w.Follows w.startEntry := by
  unfold Work.startEntry
  dsimp only
  refine .after (Work.applyAtEntry_follows _) (.of_ch ?_)
  split
  · exact .of_markers rfl rfl le_rfl hp (Marker.pulseAtEntry_law · _) (Marker.pulseAtEntry_law · _)
  · exact .of_vitals rfl le_rfl id

theorem Work.enterEntry_follows (t : EntryIx) (carry : Nat) (w : Work) (hp : w.ch.state.playing = true) :
    w.Follows (w.enterEntry t carry) :=
  .ite (.after (Work.startEntry_follows _ hp) (.quiet rfl rfl id))
    (.ite (.after (Work.startEntry_follows _ hp) (.quiet rfl rfl id)) (.quiet rfl rfl nofun))

theorem Work.listEnd_follows (c : ChanId) (carry : Nat) (afterLeave : Bool) (w : Work)
    (hp : w.ch.state.playing = true) : w.Follows (w.listEnd c carry afterLeave) := by
  refine .ite ?_ ?_
  · cases afterLeave with
    | true => exact (w.refetchFrom_follows c 0).trans (Work.enterEntry_follows 0 carry _ hp)
    | false => exact Work.enterEntry_follows 0 carry w hp
  · have h : w.Follows ({ w with ch := { w.ch with pos := carry } }.enterIdle c) :=
      (Work.enterIdle_follows c _).after (.quiet rfl rfl id)
    exact .ite ((h.trans (Work.raise_follows _ _)).trans (Work.raise_follows _ _)) (h.trans (Work.raise_follows _ _))

theorem Work.afterPass_follows (c : ChanId) (carry : Nat) (w : Work) (hp : w.ch.state.playing = true) :
    w.Follows (w.afterPass c carry) := by
  unfold Work.afterPass
  dsimp only
  refine .ite (.after (Work.raise_follows _ _) (.after (Work.enterIdle_follows c _) (.quiet rfl rfl id))) ?_
  split
  · exact .after (Work.enterEntry_follows _ _ _ hp) (.quiet rfl rfl id)
  · refine .ite ?_ (.ite ?_ ?_)
    · split
      · exact .after (Work.enterEntry_follows _ _ _ hp) (.after (Work.refetchFrom_follows c _ _) (.quiet rfl rfl id))
      · exact .after (Work.listEnd_follows c _ _ _ hp) (.quiet rfl rfl id)
    · refine .after (Work.applyAtPass_follows _) (.of_ch ?_)
      split
      · exact .of_markers rfl rfl le_rfl hp (Marker.pulseAtPass_law · _) (Marker.pulseAtPass_law · _)
      · exact .of_vitals rfl le_rfl id
    · split
      · exact Work.enterEntry_follows _ _ _ hp
      · exact Work.listEnd_follows c _ _ _ hp

theorem Work.passEnd_follows (c : ChanId) (length : Nat) (w : Work) (hp : w.ch.state.playing = true) :
    w.Follows (w.passEnd c length) := by
  have hpass : (w.dropPass c).ch.state.playing = true := by rw [Work.dropPass_state, hp]
  exact (w.dropPass_follows c).trans (.after (Work.afterPass_follows c _ _ hpass) (.quiet rfl rfl id))

/-! ### Output ticks (R58) -/

theorem Work.beginTick_follows (w : Work) : w.Follows w.beginTick.1 := by
  unfold Work.beginTick
  split
  · exact .refl _
  · exact .refl _
  · exact .refl _
  · split
    · exact .after (Work.enterEntry_follows _ _ _ rfl) (.quiet rfl rfl nofun)
    · exact .refl _
  · exact w.startOfTick_follows
  · exact w.startOfTick_follows
  · dsimp only
    split_ifs
    · exact w.startOfTick_follows
    · exact w.startOfTick_follows.trans (.after (Work.startEntry_follows _ rfl) (.quiet rfl rfl nofun))
    · exact w.startOfTick_follows.trans (.after (Work.startEntry_follows _ rfl) (.quiet rfl rfl nofun))
    · exact w.startOfTick_follows

/-- A tick that computes is one of a channel in play (R58, R67, R71). -/
theorem Work.beginTick_play {w v : Work} (h : w.beginTick = (v, .play)) : v.ch.state.playing = true := by
  unfold Work.beginTick at h
  cases hs : w.ch.state with
  | idle | arming | halted => simp [hs] at h
  | armed =>
    simp only [hs] at h
    split at h
    · obtain ⟨rfl, -⟩ := Prod.mk.inj h
      rcases Work.enterEntry_state 0 0 _ with e | e
      · exact congrArg ChanState.playing e
      · exact congrArg ChanState.playing e
    · cases h
  | running | stopping =>
    simp only [hs] at h
    obtain ⟨rfl, -⟩ := Prod.mk.inj h
    rw [Work.startOfTick_state, hs]
    rfl
  | waiting =>
    simp only [hs] at h
    split_ifs at h
    · cases h
    · obtain ⟨rfl, -⟩ := Prod.mk.inj h
      rw [Work.startEntry_state]
      rfl
    · obtain ⟨rfl, -⟩ := Prod.mk.inj h
      rw [Work.startEntry_state]
      rfl
    · cases h

theorem Work.clipTick_follows (clamped : Bool) (w : Work) : w.Follows (w.clipTick clamped) := by
  have hcount : w.Follows { w with
      ch := { w.ch with clipOpen := true, clipCount := min 65535 (w.ch.clipCount + 1) } } := by
    refine .of_ch (.of_parts (.congr rfl) le_rfl ?_ id id fun hx hk => hk hx)
    rintro ⟨h1, h2, h3, h4, h5, h6, -, h8⟩
    exact ⟨h1, h2, h3, h4, h5, h6, min_le_left _ _, h8⟩
  exact .ite (.ite hcount (hcount.trans (Work.raise_follows _ _))) (.quiet rfl rfl id)

theorem Work.clipTick_state (clamped : Bool) (w : Work) : (w.clipTick clamped).ch.state = w.ch.state := by
  unfold Work.clipTick
  dsimp only
  split_ifs <;> rfl

theorem Chan.countMarkers_follows (k : Chan) : k.Follows k.countMarkers :=
  .of_parts (.congr rfl) le_rfl (.congr rfl) Marker.countTick_law Marker.countTick_law fun hx hk =>
    ⟨Marker.countTick_silent (hk hx).1, Marker.countTick_silent (hk hx).2⟩

theorem Chan.compareMarkers_follows (k : Chan) (out : Int) (hp : k.state.playing = true) :
    k.Follows (k.compareMarkers out) :=
  .of_markers rfl rfl le_rfl hp (Marker.compareLevel_law · _ _) (Marker.compareLevel_law · _ _)

/-- The position plays no part in the laws. -/
theorem Chan.Follows.with_pos {k x : Chan} (h : k.Follows x) (n : Nat) : k.Follows { x with pos := n } :=
  h.trans (.of_vitals rfl le_rfl id)

theorem Work.compute_follows (a b : Sample) (h : Int) (w : Work) (hp : w.ch.state.playing = true) :
    w.Follows (w.compute a b h) := by
  unfold Work.compute
  dsimp only
  generalize hw1 : Work.clipTick _ _ = w1
  have hclip : w.Follows w1 := hw1 ▸ .after (Work.clipTick_follows _ _) (.quiet rfl rfl id)
  have hplay : w1.ch.state.playing = true := by
    rw [← hw1, Work.clipTick_state]
    exact hp
  have hword : ∀ v out, w1.ch.Follows ((w1.ch.place v).countMarkers.compareMarkers out) := fun v out =>
    (w1.ch.place_follows v).trans ((Chan.countMarkers_follows _).trans (Chan.compareMarkers_follows _ out hplay))
  exact hclip.trans (.of_ch ((hword _ _).with_pos _))

theorem Work.stall_follows (w : Work) : w.Follows w.stall := by
  have hcount : w.ch.Follows { w.ch.countMarkers with passStalled := true } :=
    (Chan.countMarkers_follows _).trans (.of_vitals rfl le_rfl id)
  refine .ite (.of_ch hcount) (.of_ch (hcount.trans ?_))
  refine .of_parts (.congr rfl) le_rfl ?_ id id fun hx hk => hk hx
  rintro ⟨h1, h2, h3, h4, h5, -, h7, h8⟩
  exact ⟨h1, h2, h3, h4, h5, min_le_left _ _, h7, h8⟩

theorem Work.tickWord_follows (segs : Vector SegRec 256) (h : Int) (w : Work) : w.Follows (w.tickWord segs h).1 := by
  have hw := w.beginTick_follows
  unfold Work.tickWord
  split
  case h_4 w1 heq =>
    rw [heq] at hw
    exact hw.trans (.of_ch (Chan.countMarkers_follows _))
  case h_5 w1 heq =>
    have hplay := Work.beginTick_play heq
    rw [heq] at hw
    have hc : w.Follows w1.consult := hw.trans w1.consult_follows
    dsimp only
    split
    · exact hc.trans (Work.compute_follows _ _ _ _ hplay)
    · exact hc.trans (Work.stall_follows _)
  all_goals
    rename_i w1 heq
    rw [heq] at hw
    exact hw.trans (.of_ch (Chan.place_follows _ _))

theorem Work.compute_state (a b : Sample) (h : Int) (w : Work) : (w.compute a b h).ch.state = w.ch.state := by
  unfold Work.compute
  dsimp only [Chan.compareMarkers, Chan.countMarkers, Chan.place]
  rw [Work.clipTick_state]

/-- Only a computed tick, one of a channel in play, advances the position (R89). -/
theorem Work.tickWord_moved {segs : Vector SegRec 256} {h : Int} {w : Work} (hm : (w.tickWord segs h).2 = .moved) :
    (w.tickWord segs h).1.ch.state.playing = true := by
  unfold Work.tickWord at hm ⊢
  rcases hb : w.beginTick with ⟨w1, ph⟩
  rw [hb] at hm
  cases ph with
  | play =>
    have hplay := Work.beginTick_play hb
    dsimp only at hm ⊢
    split at hm
    · rw [Work.compute_state]
      exact hplay
    · dsimp only at hm
      split at hm <;> cases hm
  | idleWord | parkWord | stopNow | hold => cases hm

theorem Work.tickEnd_follows (segs : Vector SegRec 256) (c : ChanId) (r : Rest) (w : Work)
    (hp : r = .moved → w.ch.state.playing = true) : w.Follows (w.tickEnd segs c r) := by
  cases r with
  | nothing => exact .refl w
  | stop => exact (w.enterIdle_follows c).trans (Work.raise_follows _ _)
  | starve => exact w.halt_follows c .starved
  | moved => exact .ite (Work.passEnd_follows c _ w (hp rfl)) (.refl w)

/-! ### Trigger events, the loss of the clock, and commands on one channel -/

theorem Work.triggerEvent_follows (deaf : Bool) (src : Source) (w : Work) : w.Follows (w.triggerEvent deaf src) := by
  obtain ⟨-, hc⟩ := w.triggerEvent_frame deaf src
  exact .quiet (congrArg Chan.vitals hc :) (congrArg Chan.fifo hc :)
    (congrArg (fun y : Chan => y.state.playing) hc ▸ id)

theorem Work.loseClock_follows (c : ChanId) (w : Work) : w.Follows (w.loseClock c) := by
  unfold Work.loseClock
  split
  · exact w.halt_follows c .clockLost
  · exact w.halt_follows c .clockLost
  · exact w.halt_follows c .clockLost
  · exact .of_ch (.after (Chan.place_follows _ _) (.of_vitals rfl le_rfl id))
  · exact .of_ch (.after (Chan.place_follows _ _) (.of_vitals rfl le_rfl id))
  · exact .of_ch (Chan.place_follows _ _)
  · exact .refl w

theorem Work.arm_follows (c : ChanId) (w : Work) (h : w.ch.state = .idle) : w.Follows (w.arm c) :=
  (w.flush_follows c).trans (.quiet rfl rfl fun _ => congrArg ChanState.playing h)

theorem Work.disarm_follows (c : ChanId) (w : Work) (h : w.ch.state = .arming ∨ w.ch.state = .armed) :
    w.Follows (w.disarm c) := by
  refine (w.flush_follows c).trans (.quiet rfl rfl fun _ => ?_)
  rcases h with e | e
  · exact congrArg ChanState.playing e
  · exact congrArg ChanState.playing e

theorem Work.flushFor_follows (c : ChanId) (mode : StopPoint) (w : Work) : w.Follows (w.flushFor c mode) :=
  .ite (w.flush_follows c) (.refl w)

theorem Work.stopCommand_follows (c : ChanId) (mode : StopPoint) (w : Work) : w.Follows (w.stopCommand c mode) := by
  unfold Work.stopCommand
  split
  · exact .refl w
  · exact .refl w
  · exact w.disarm_follows c (.inl ‹_›)
  · exact w.disarm_follows c (.inr ‹_›)
  · exact .after (Work.flushFor_follows c mode _) (.quiet rfl rfl nofun)
  · exact .after (Work.flushFor_follows c mode _) (.ite (.quiet rfl rfl id) (.refl w))
  · exact .after (Work.flush_follows c _) (.quiet rfl rfl id)

theorem Work.jumpCommand_follows (c : ChanId) (t : EntryIx) (w : Work) : w.Follows (w.jumpCommand c t) := by
  refine .ite ?_ (.after (Work.jumpRedirect_follows c t _) (.quiet rfl rfl id))
  unfold Work.jumpWaiting
  dsimp only
  refine .after (Work.refetchFrom_follows c t _) ?_
  split_ifs <;> exact .quiet rfl rfl id

end Sys2Proof.Machine
end

section
/-! ## What settings do to a channel's laws (R82, R83, R129, R140 to R142) -/

namespace Sys2Proof.Machine

theorem clampNat_range {lo hi n : Nat} (h : lo ≤ hi) : lo ≤ (clampNat lo hi n).1 ∧ (clampNat lo hi n).1 ≤ hi := by
  unfold clampNat
  split_ifs
  · exact ⟨le_rfl, h⟩
  · exact ⟨h, le_rfl⟩
  · exact ⟨by omega, by omega⟩

/-- A numeric parameter stays in its range, written or not. -/
theorem clampOpt_range {lo hi old : Nat} (h : lo ≤ old ∧ old ≤ hi) (o : Option Nat) :
    lo ≤ (clampOpt lo hi old o).1 ∧ (clampOpt lo hi old o).1 ≤ hi := by
  cases o with
  | none => exact h
  | some n => exact clampNat_range (h.1.trans h.2)

/-- The step as SET-LIVE takes it, at its nearest bound (R140). -/
theorem clampStep_range (w : Long) : 1 ≤ (clampStep w).1 ∧ (clampStep w).1 ≤ 1048576 := by
  unfold clampStep
  split_ifs
  · exact ⟨le_rfl, by decide⟩
  · exact ⟨by decide, le_rfl⟩
  · exact ⟨by omega, by omega⟩

/-! ### SET-STATIC -/

theorem StaticParams.write_divider {old st : StaticParams} {a : StaticArgs} {clamped : Bool}
    (h : old.write a = some (st, clamped)) (hd : 1 ≤ old.divider ∧ old.divider ≤ 4096) :
    1 ≤ st.divider ∧ st.divider ≤ 4096 := by
  unfold StaticParams.write at h
  split at h
  · obtain ⟨rfl, -⟩ := Prod.mk.inj (Option.some.inj h)
    exact clampOpt_range hd _
  · cases h

/-- The parameters that pass the checks of SET-STATIC are those it writes. -/
theorem staticCheck_write {s : State} {c : ChanId} {a : StaticArgs} {st : StaticParams} {clamped : Bool}
    (h : s.staticCheck c a = .ok (st, clamped)) : (s.chan c).stat.write a = some (st, clamped) := by
  unfold State.staticCheck at h
  split at h
  · cases h
  · split at h
    · cases h
    · rename_i r hr
      split at h
      · cases h
      · rw [hr, Except.ok.inj h]

theorem Chan.writeStatic_follows {k : Chan} {st : StaticParams}
    (h : 1 ≤ k.stat.divider ∧ k.stat.divider ≤ 4096 → 1 ≤ st.divider ∧ st.divider ≤ 4096) :
    k.Follows (k.writeStatic st) := by
  have hstat : k.Follows { k with stat := st } := by
    refine .of_parts (.congr rfl) le_rfl ?_ id id fun hx hk => hk hx
    rintro ⟨hlow, hhigh, hrest⟩
    obtain ⟨hlow', hhigh'⟩ := h ⟨hlow, hhigh⟩
    exact ⟨hlow', hhigh', hrest⟩
  unfold Chan.writeStatic
  dsimp only
  split_ifs
  · exact hstat.trans (Chan.place_follows _ _)
  · exact hstat.trans (Chan.place_follows _ _)
  · exact hstat

/-! ### SET-LIVE and APPLY-GROUP -/

/-- The step of a record, if it has one, is in range (R138). -/
def PendingRec.StepLaw (r : PendingRec) : Prop := ∀ n ∈ r.step, 1 ≤ n ∧ n ≤ 1048576

theorem liveRecord_stepLaw (a : LiveArgs) : (liveRecord a).StepLaw := by
  intro n hn
  obtain ⟨w, -, rfl⟩ := Option.map_eq_some_iff.1 hn
  exact clampStep_range w

theorem PendingRec.stage_stepLaw {r given : PendingRec} (hr : r.StepLaw) (hg : given.StepLaw) (pt : ApplyPoint) :
    (r.stage given pt).StepLaw := by
  unfold PendingRec.stage
  dsimp only
  split
  · exact hr
  · intro n hn
    rcases Option.or_eq_some_iff.1 hn with h | ⟨-, h⟩
    · exact hg n h
    · exact hr n h

theorem Chan.setLive_follows (k : Chan) {given : PendingRec} (hg : given.StepLaw) (pt : ApplyPoint) :
    k.Follows (k.setLive given pt) := by
  unfold Chan.setLive
  split
  · refine .of_parts (.congr rfl) le_rfl ?_ id id fun hx hk => hk hx
    rintro ⟨h1, h2, h3, h4, hstaged, hcounts⟩
    exact ⟨h1, h2, h3, h4, PendingRec.stage_stepLaw hstaged hg pt, hcounts⟩
  · refine .of_parts (.congr rfl) le_rfl ?_ id id fun hx hk => hk hx
    rintro ⟨h1, h2, hlow, hhigh, hrest⟩
    have hstep : 1 ≤ given.step.getD k.live.step ∧ given.step.getD k.live.step ≤ 1048576 := by
      cases hs : given.step with
      | none => exact ⟨hlow, hhigh⟩
      | some n => exact hg n hs
    exact ⟨h1, h2, hstep.1, hstep.2, hrest⟩

theorem Chan.joinGroup_follows (k : Chan) : k.Follows k.joinGroup := by
  unfold Chan.joinGroup
  split
  · exact .of_vitals rfl le_rfl id
  · exact .refl k

/-! ### START and CLEAR-FAULT -/

theorem Chan.startCommand_follows (k : Chan) : k.Follows k.startCommand := by
  unfold Chan.startCommand
  split
  · exact .of_vitals rfl le_rfl id
  · exact .refl k

theorem Chan.clearFault_follows (k : Chan) (h : k.state = .halted) : k.Follows k.clearFault :=
  .after (Chan.place_follows _ _) (.of_vitals rfl le_rfl fun _ => congrArg ChanState.playing h)

/-! ### SET-MARKER (R129) -/

/-- A silent unit takes any configuration. -/
theorem Marker.write_spec {m x : Marker} {a : MarkerArgs} {clamped : Bool} (h : m.write a = some (x, clamped))
    (hm : m.Law) (hs : m.Silent) : x.Law ∧ x.Silent := by
  unfold Marker.write at h
  split at h
  · obtain ⟨rfl, -⟩ := Prod.mk.inj (Option.some.inj h)
    obtain ⟨hlow, hhigh, hhyst, hrem, -, -⟩ := hm
    obtain ⟨hactive, hzero⟩ := hs
    obtain ⟨hlow', hhigh'⟩ := clampOpt_range ⟨hlow, hhigh⟩ (a.width.map BitVec.toNat)
    obtain ⟨-, hhyst'⟩ := clampOpt_range ⟨Nat.zero_le _, hhyst⟩ (a.hyst.map BitVec.toNat)
    exact ⟨⟨hlow', hhigh', hhyst', hrem, fun _ => hactive, fun _ => hzero⟩, hactive, hzero⟩
  · cases h

/-- One unit of a channel outside play replaced by a silent one. -/
theorem Chan.setUnit_follows {k : Chan} {u : MkUnit} {m : Marker} (hplay : k.state.playing = false)
    (h : (k.unit u).Law → (k.unit u).Silent → m.Law ∧ m.Silent) : k.Follows (k.setUnit u m) := by
  cases u with
  | mk1 =>
    refine ⟨.congr rfl, le_rfl, fun hk => ?_⟩
    obtain ⟨hr, h1, h2, hs⟩ := k.sound_iff.1 hk
    obtain ⟨hlaw, hsilent⟩ := h h1 (hs hplay).1
    exact (Chan.sound_iff _).2 ⟨hr, hlaw, h2, fun _ => ⟨hsilent, (hs hplay).2⟩⟩
  | mk2 =>
    refine ⟨.congr rfl, le_rfl, fun hk => ?_⟩
    obtain ⟨hr, h1, h2, hs⟩ := k.sound_iff.1 hk
    obtain ⟨hlaw, hsilent⟩ := h h2 (hs hplay).2
    exact (Chan.sound_iff _).2 ⟨hr, h1, hlaw, fun _ => ⟨(hs hplay).1, hsilent⟩⟩

/-- The checks of SET-MARKER say that the channel is not in play and the configuration is one written to its unit. -/
theorem markerCheck_ok {s : State} {p : Port} {ch unit : Byte} {a : MarkerArgs} {c : ChanId} {u : MkUnit} {m : Marker}
    {clamped : Bool} (h : s.markerCheck p ch unit a = .ok (c, u, m, clamped)) :
    (s.chan c).state.active = false ∧ ((s.chan c).unit u).write a = some (m, clamped) := by
  unfold State.markerCheck at h
  split at h
  · split at h
    · cases h
    · split at h
      · cases h
      · rename_i hactive
        split at h
        · cases h
        · rename_i hw
          cases h
          exact ⟨Bool.eq_false_iff.2 hactive, hw⟩
  · cases h

theorem ChanState.playing_of_inactive {k : ChanState} (h : k.active = false) : k.playing = false := by
  cases k with
  | idle | halted => rfl
  | arming | armed | running | waiting | stopping => cases h

/-- A pulse that ends (R131). -/
theorem Chan.endPulse_follows (k : Chan) (u : MkUnit) : k.Follows (k.setUnit u { k.unit u with active := false }) := by
  have hlaw : ∀ {m : Marker}, m.Law → ({ m with active := false } : Marker).Law := by
    rintro m ⟨h1, h2, h3, h4, -, h6⟩
    exact ⟨h1, h2, h3, h4, fun _ => rfl, h6⟩
  cases u with
  | mk1 => exact .of_parts (.congr rfl) le_rfl (.congr rfl) hlaw id fun hx hk => ⟨⟨rfl, (hk hx).1.2⟩, (hk hx).2⟩
  | mk2 => exact .of_parts (.congr rfl) le_rfl (.congr rfl) id hlaw fun hx hk => ⟨(hk hx).1, rfl, (hk hx).2.2⟩

end Sys2Proof.Machine
end

section
/-! ## What an event does to the laws of every channel (R84, R99, R102, R133)

With the reference counts and the segment states, where the event leaves them alone. -/

namespace Sys2Proof.Machine

/-- An event keeps the laws of the channels and, where `still` says so, every reference count and segment state. -/
structure Keeps (still : Prop) (s t : State) : Prop where
  lane : ∀ c, (s.chan c).LaneLaw → (t.chan c).LaneLaw
  fifo : s.FifoLaw → t.FifoLaw
  sound : ∀ c, (s.chan c).Sound → (t.chan c).Sound
  tally : still → ∀ i, (t.seg i).refs = (s.seg i).refs ∧ (t.seg i).state = (s.seg i).state

namespace Keeps

variable {q : Prop} {s t u : State}

theorem trans (h : Keeps q s u) (k : Keeps q u t) : Keeps q s t :=
  ⟨fun c => k.lane c ∘ h.lane c, k.fifo ∘ h.fifo, fun c => k.sound c ∘ h.sound c, fun hq i =>
    ⟨(k.tally hq i).1.trans (h.tally hq i).1, (k.tally hq i).2.trans (h.tally hq i).2⟩⟩

/-- The same, for a step whose end is known before its middle. -/
theorem after (k : Keeps q u t) (h : Keeps q s u) : Keeps q s t := h.trans k

/-- An event that follows the laws of each channel and puts no burst to be kept into flight. -/
theorem of_follows (hc : ∀ c, (s.chan c).Follows (t.chan c))
    (hb : ∀ b, t.burst = some b → b.keep = true → s.burst = some b)
    (hs : q → ∀ i, (t.seg i).refs = (s.seg i).refs ∧ (t.seg i).state = (s.seg i).state) : Keeps q s t := by
  refine ⟨fun c => (hc c).lane, fun h c => ?_, fun c => (hc c).sound, hs⟩
  obtain ⟨hlen, hkept⟩ := h c
  refine ⟨(hc c).fifo.trans hlen, fun b hbt hreq hkeep => ?_⟩
  exact (Nat.add_le_add_right (hc c).fifo _).trans (hkept b (hb b hbt hkeep) hreq hkeep)

/-- An event that leaves the channels alone. -/
theorem of_chans (hc : t.chans = s.chans) (hb : ∀ b, t.burst = some b → b.keep = true → s.burst = some b)
    (hs : q → t.segs = s.segs) : Keeps q s t := by
  refine of_follows (fun c => ?_) hb fun hq i => ?_
  · unfold State.chan
    rw [hc]
    exact .refl _
  · unfold State.seg
    rw [hs hq]
    exact ⟨rfl, rfl⟩

/-- An event that leaves channels, segments and the burst in flight alone. -/
theorem of_eq (hc : t.chans = s.chans) (hs : t.segs = s.segs) (hb : t.burst = s.burst) : Keeps q s t :=
  of_chans hc (fun _ h _ => hb ▸ h) fun _ => hs

theorem refl (s : State) : Keeps q s s := of_eq rfl rfl rfl

theorem ite {p : Prop} [Decidable p] (h : Keeps q s t) (k : Keeps q s u) : Keeps q s (if p then t else u) := by
  split
  · exact h
  · exact k

theorem foldl {α : Type} {f : State → α → State} (h : ∀ s x, Keeps q s (f s x)) (l : List α) (s : State) :
    Keeps q s (l.foldl f s) := by
  induction l generalizing s with
  | nil => exact refl s
  | cons x r ih => exact (h s x).trans (ih _)

/-- An event that ends in a response. -/
theorem answered (h : Keeps q s u) (p : Port) (e : Byte) (st : Status) (pl : List Byte) :
    Keeps q s (u.respond p e st pl) := h.trans (of_eq rfl rfl rfl)

/-- An event that ends with the cancelled readbacks answered. -/
theorem settled (h : Keeps q s u) : Keeps q s u.settleCancelled := by
  refine h.trans ?_
  obtain ⟨_, _, e⟩ := u.settleCancelled_eq
  rw [e]
  exact of_eq rfl rfl rfl

theorem onPort {p : Port} {n : Nat} {act : State → State} (h : ∀ u, Keeps q u (act u)) :
    Keeps q s (Sys2Proof.Machine.onPort p n s act) := by
  obtain ⟨ps, e | e⟩ := onPort_cases p n s act <;> rw [e]
  · exact of_eq rfl rfl rfl
  · exact (h _).after (of_eq rfl rfl rfl)

end Keeps

section
variable {q : Prop}

/-! ### Channels and segments replaced -/

theorem setChan_keeps (s : State) (c : ChanId) {k : Chan} (h : (s.chan c).Follows k) : Keeps q s (s.setChan c k) := by
  refine .of_follows (fun d => ?_) (fun _ hb _ => hb) fun _ _ => ⟨rfl, rfl⟩
  rw [State.setChan_chan]
  split
  case isTrue e => exact e ▸ h
  case isFalse => exact .refl _

theorem setSeg_keeps (s : State) (i : SegId) {r : SegRec} (hr : q → r.refs = (s.seg i).refs)
    (hs : q → r.state = (s.seg i).state) : Keeps q s (s.setSeg i r) := by
  refine .of_follows (fun _ => .refl _) (fun _ hb _ => hb) fun hq j => ?_
  rw [State.setSeg_seg]
  split
  case isTrue e => exact e ▸ ⟨hr hq, hs hq⟩
  case isFalse => exact ⟨rfl, rfl⟩

theorem setPort_keeps (s : State) (p : Port) (r : PortRec) : Keeps q s (s.setPort p r) := .of_eq rfl rfl rfl

theorem setLoad_keeps (s : State) (p : Port) (u : LoadUnit) : Keeps q s (s.setLoad p u) := .of_eq rfl rfl rfl

theorem setPassOver_keeps (s : State) (p : Port) (n : Nat) : Keeps q s (s.setPassOver p n) := .of_eq rfl rfl rfl

theorem setTick_keeps (s : State) (c : ChanId) (k : TickStatus) : Keeps q s (s.setTick c k) := .of_eq rfl rfl rfl

theorem arb_keeps (s : State) (a : Arbiter) : Keeps q s { s with arb := a } := .of_eq rfl rfl rfl

theorem clocked_keeps (s : State) (m : Monitor) (k : Vector TickStatus 8) :
    Keeps q s { s with monitor := m, ticks := k } := .of_eq rfl rfl rfl

theorem syncEvents_keeps (s : State) (l : List SyncEvent) : Keeps q s { s with syncEvents := l } := .of_eq rfl rfl rfl

theorem raiseBoth_keeps (s : State) (src : EventSource) (k : Kind) : Keeps q s (s.raiseBoth src k) := .of_eq rfl rfl rfl

theorem putWork_keeps (s : State) (c : ChanId) {w : Work} (hs : (s.work c).Steady w) (hf : (s.work c).Follows w) :
    Keeps q s (s.putWork c w) := by
  obtain ⟨_, e⟩ := s.putWork_eq c w
  rw [e]
  refine (setChan_keeps s c hf).trans (.of_chans rfl (fun b hb hkeep => ?_) fun _ => rfl)
  rcases hs.burst with hw | ⟨x, -, hw⟩
  · exact hw.symm.trans hb
  · rw [← Option.some.inj (hw.symm.trans hb)] at hkeep
    cases hkeep

/-! ### Triggers, lines and the loss of the clock -/

theorem triggerBy_keeps (s : State) (own : Option ChanId) (src : Source) : Keeps q s (s.triggerBy own src) :=
  .foldl (fun t c => putWork_keeps t c (Work.triggerEvent_steady _ src _) (Work.triggerEvent_follows _ src _)) _ s

theorem trigger_keeps (s : State) (src : Source) : Keeps q s (s.trigger src) := triggerBy_keeps s none src

theorem reach_keeps (s : State) (e : SyncEvent) : Keeps q s (s.reach e) := triggerBy_keeps s _ _

theorem deliverLines_keeps (s t : State) : Keeps q t (s.deliverLines t) :=
  .foldl (fun u l => trigger_keeps u (.syn l)) _ t

theorem noteLines_keeps (s : State) (c : ChanId) (t : State) : Keeps q t (s.noteLines c t) := .of_eq rfl rfl rfl

theorem loseAll_keeps (s : State) : Keeps q s s.loseAll :=
  .foldl (fun t c => putWork_keeps t c (Work.loseClock_steady c _) (Work.loseClock_follows c _)) _ s

theorem deliverEvent_keeps (s : State) (e : SyncEvent) : Keeps q s (s.deliverEvent e) :=
  (syncEvents_keeps s _).trans (reach_keeps _ e)

theorem deliverAll_keeps (s : State) : Keeps q s s.deliverAll :=
  (syncEvents_keeps s []).trans (.foldl reach_keeps _ _)

theorem judgePin_keeps (s : State) (n : Fin 4) (level : Bool) : Keeps q s (s.judgePin n level) :=
  .ite (.refl s) (.ite (.after (trigger_keeps _ _) (.of_eq rfl rfl rfl)) (.of_eq rfl rfl rfl))

theorem writeEdgeMode_keeps (s : State) (p : Port) (n : Fin 8) (m : EdgeMode) : Keeps q s (s.writeEdgeMode p n m) :=
  .ite (.of_eq rfl rfl rfl) (.of_eq rfl rfl rfl)

theorem drive_keeps (s : State) (l : Fin 4) (d : Option (ChanId × MkUnit)) : Keeps q s (s.drive l d) :=
  .after (deliverLines_keeps _ _) (.of_eq rfl rfl rfl)

/-! ### Grants (R104, R115) -/

/-- A burst a Fetcher is granted brings no more than the FIFO has room for (R102, R104). -/
theorem fetchBurst_count (c : ChanId) (r : SegRec) (e : Entry) (cur : Cursor) {held : Nat} (h : held ≤ 64) :
    held + (fetchBurst c r e cur held).count ≤ 64 := by
  dsimp only [fetchBurst]
  omega

theorem grantFetch_keeps (s : State) (c : ChanId) : Keeps q s (s.grantFetch c) := by
  unfold State.grantFetch
  dsimp only
  split
  · exact .refl s
  · split
    · exact .refl s
    · rename_i cur _ _ e _
      have hk := Chan.moveCursor_follows (s.chan c) cur (fetchBurst c (s.seg e.seg) e cur (s.chan c).fifo.length).count
        (((s.seg e.seg).length).getD 0)
      have hmove := setChan_keeps (q := q) s c hk
      refine ⟨hmove.lane, fun h d => ?_, hmove.sound, hmove.tally⟩
      obtain ⟨hlen, -⟩ := hmove.fifo h d
      refine ⟨hlen, fun b hb hreq _ => ?_⟩
      obtain rfl := Option.some.inj hb
      obtain rfl : c = d := Requester.fetcher.inj hreq
      refine (Nat.add_le_add_right ?_ _).trans (fetchBurst_count c _ e cur (h c).1)
      exact (congrArg (fun k : Chan => k.fifo.length) (State.setChan_chan_self s c _)).le.trans hk.fifo

theorem grantLoad_keeps (s : State) (p : Port) : Keeps q s (s.grantLoad p) := by
  have hgrant : ∀ b : Burst, b.requester = .loadUnit p → Keeps q s { s with burst := some b } := fun b hb =>
    ⟨fun _ => id, fun h c => ⟨(h c).1, fun x hx hreq => by
      rw [← Option.some.inj hx, hb] at hreq
      cases hreq⟩, fun _ => id, fun _ _ => ⟨rfl, rfl⟩⟩
  unfold State.grantLoad
  dsimp only
  split
  · split
    · exact hgrant _ rfl
    · exact .refl s
  · split
    · exact hgrant _ rfl
    · exact .refl s

theorem arbitrate_keeps (s : State) : Keeps q s s.arbitrate := by
  unfold State.arbitrate
  split
  · exact .refl s
  · split
    · exact .refl s
    · refine .trans ?_ (arb_keeps _ _)
      split
      · exact grantFetch_keeps s _
      · exact grantLoad_keeps s _

/-! ### Output ticks and the clock -/

theorem tickOne_keeps (s : State) (c : ChanId) : Keeps q s (s.tickOne c) := by
  unfold State.tickOne
  dsimp only
  generalize hr : Work.tickWord s.segs _ (s.work c) = r
  have hsteady : (s.work c).Steady r.1 := hr ▸ Work.tickWord_steady _ _ _
  have hfollows : (s.work c).Follows r.1 := hr ▸ Work.tickWord_follows _ _ _
  have hchan : (s.noteLines c (s.putWork c r.1)).chan c = r.1.ch := ((s.putWork_spec c r.1).1 c).trans (if_pos rfl)
  have hplay : r.2 = .moved → ((s.noteLines c (s.putWork c r.1)).work c).ch.state.playing = true := fun hm => by
    refine (congrArg (fun k : Chan => k.state.playing) hchan).trans ?_
    rw [← hr] at hm ⊢
    exact Work.tickWord_moved hm
  refine .trans ?_ (arbitrate_keeps _)
  refine .trans ?_ (setTick_keeps _ c _)
  refine .trans ?_ (noteLines_keeps _ c _)
  refine .trans ?_ (putWork_keeps _ c (Work.tickEnd_steady _ c _ _) (Work.tickEnd_follows _ c _ _ hplay))
  exact (putWork_keeps s c hsteady hfollows).trans (noteLines_keeps s c _)

theorem tickChannel_keeps (s : State) (c : ChanId) : Keeps q s (s.tickChannel c) :=
  (tickOne_keeps s c).trans (.foldl tickOne_keeps _ _)

theorem finishTicks_keeps (s : State) : Keeps q s s.finishTicks :=
  .foldl (fun t c => .ite (tickOne_keeps t c) (.refl t)) _ s

theorem finishEdge_keeps (s : State) : Keeps q s s.finishEdge := (finishTicks_keeps s).trans (deliverAll_keeps _)

theorem clockIsLost_keeps (s : State) : Keeps q s s.clockIsLost := by
  refine .trans ?_ (deliverLines_keeps _ _)
  refine .trans ?_ (loseAll_keeps _)
  refine .trans ?_ (raiseBoth_keeps _ _ _)
  exact (finishEdge_keeps s).trans (clocked_keeps _ _ _)

theorem clockIsBack_keeps (s : State) : Keeps q s s.clockIsBack :=
  (clocked_keeps s _ _).trans (raiseBoth_keeps _ _ _)

theorem refclkPeriod_keeps (s : State) : Keeps q s s.refclkPeriod := by
  have h : ∀ m, Keeps q s { s with monitor := m } := fun m => .of_eq rfl rfl rfl
  refine .ite ?_ ?_
  · split
    · exact clockIsLost_keeps s
    · exact h _
  · split
    · exact h _
    · exact .ite (.ite ((h _).trans (clockIsBack_keeps _)) (h _)) (h _)

/-! ### Claims -/

theorem claimOne_keeps (p : Port) (y k : Bool) (s : State) (c : ChanId) : Keeps q s (s.claimOne p y k c) := by
  unfold State.claimOne
  split <;> exact .of_eq rfl rfl rfl

theorem releaseOne_keeps (p : Port) (s : State) (c : ChanId) : Keeps q s (s.releaseOne p c) :=
  .ite (.of_eq rfl rfl rfl) (.refl s)

/-! ### Completions of bursts (R25, R35, R105) -/

theorem fetchItems_length (tail : Sample) (b : Burst) (slots : List Slot) :
    (fetchItems tail b slots).length = if b.keep = true ∧ b.tag.isSome then slots.length else 0 := by
  unfold fetchItems
  cases b.keep with
  | false => simp
  | true =>
    cases b.tag with
    | none => simp
    | some g => simpa using fetchedItems_length _ _ _ _

/-- The items of a burst go into the room that was kept for them (R102). -/
theorem fetchTaken_keeps {s : State} {c : ChanId} {b : Burst} (hb : s.burst = some b)
    (hreq : b.requester = .fetcher c) : Keeps q s (s.fetchTaken c b) := by
  obtain ⟨hchan, hchans, hseg, -, hrest⟩ := fetchTaken_appended s c b
  obtain ⟨_, _, _, e⟩ := s.endRead_eq b
  have hread : ∀ d, (s.endRead b).chan d = s.chan d := fun d => (congrArg (State.chan · d) e).trans rfl
  have hburst : (s.fetchTaken c b).burst = none :=
    (congrArg State.burst hrest :).trans (congrArg State.burst e)
  have hone : ∀ d, ∃ l, (s.fetchTaken c b).chan d = { s.chan d with fifo := l } := fun d => by
    by_cases hd : d = c
    · rw [hd, hchan, hread]
      exact ⟨_, rfl⟩
    · rw [hchans d hd, hread]
      exact ⟨_, rfl⟩
  refine ⟨fun d hk => ?_, fun h d => ⟨?_, fun x hx => ?_⟩, fun d hk => ?_, fun _ i => ?_⟩
  · obtain ⟨l, hl⟩ := hone d
    rw [hl]
    exact hk
  · obtain ⟨hlen, hkept⟩ := h d
    by_cases hd : d = c
    · subst hd
      rw [hchan, List.length_append, fetchItems_length, readSlots_length, hread]
      split
      case isTrue hk => exact hkept b hb hreq hk.1
      case isFalse => exact hlen
    · rw [hchans d hd, hread]
      exact hlen
  · rw [hburst] at hx
    cases hx
  · obtain ⟨l, hl⟩ := hone d
    rw [hl]
    exact hk
  · have hrec : (s.endRead b).seg i = s.seg i := (congrArg (State.seg · i) e).trans rfl
    rw [hseg i, hrec]
    split <;> exact ⟨rfl, rfl⟩

theorem endPrefill_keeps (s : State) (c : ChanId) : Keeps q s (s.endPrefill c) := by
  unfold State.endPrefill
  split
  case isTrue h =>
    refine .after (raiseBoth_keeps _ _ _) (setChan_keeps s c (.of_vitals rfl le_rfl fun _ => ?_))
    exact congrArg ChanState.playing h.1
  case isFalse => exact .refl s

theorem fetchDone_keeps {s : State} {c : ChanId} {b : Burst} (hb : s.burst = some b) (hreq : b.requester = .fetcher c) :
    Keeps q s (s.fetchDone c b) :=
  (fetchTaken_keeps hb hreq).trans ((endPrefill_keeps _ c).trans (arbitrate_keeps _))

theorem endRead_keeps (s : State) (b : Burst) : Keeps q s (s.endRead b) := by
  obtain ⟨_, _, _, e⟩ := s.endRead_eq b
  rw [e]
  exact .of_chans rfl nofun fun _ => rfl

theorem answerCancelled_keeps (s : State) (p : Port) : Keeps q s (s.answerCancelled p) := by
  unfold State.answerCancelled
  dsimp only
  split
  · exact .ite (.of_eq rfl rfl rfl) (.refl s)
  · exact .refl s

theorem takeRead_keeps (s : State) (p : Port) (slots : List Slot) : Keeps q s (s.takeRead p slots) := by
  unfold State.takeRead
  dsimp only
  split
  · exact .refl s
  · exact .ite (.of_eq rfl rfl rfl) (.of_eq rfl rfl rfl)

theorem dropRead_keeps (s : State) (p : Port) : Keeps q s (s.dropRead p) := by
  unfold State.dropRead
  dsimp only
  split
  · exact .ite (.after (answerCancelled_keeps _ p) (.of_eq rfl rfl rfl)) (.refl s)
  · exact .refl s

theorem readDone_keeps (s : State) (p : Port) (b : Burst) : Keeps q s (s.readDone p b) := by
  refine .trans ?_ (arbitrate_keeps _)
  exact (endRead_keeps s b).trans (.ite (takeRead_keeps _ p _) (dropRead_keeps _ p))

end

/-! ### Segments and loads -/

/-- A burst whose items are to be discarded is not one to be kept. -/
theorem Burst.discard_kept {p : Port} {b : Burst} (h : (b.discard p).keep = true) : b.discard p = b := by
  unfold Burst.discard at h ⊢
  split
  case isTrue hx =>
    rw [if_pos hx] at h
    cases h
  case isFalse => rfl

theorem discard_kept {p : Port} {o : Option Burst} {b : Burst} (h : o.map (Burst.discard p) = some b)
    (hb : b.keep = true) : o = some b := by
  obtain ⟨x, hx, rfl⟩ := Option.map_eq_some_iff.1 h
  rw [hx, Burst.discard_kept hb]

theorem dropReadBurst_keeps (s : State) (p : Port) : Keeps False s (s.dropReadBurst p) := by
  rw [s.dropReadBurst_eq p]
  exact .of_chans rfl (fun _ => discard_kept) nofun

theorem cancelReadback_keeps (s : State) (i : SegId) (p : Port) : Keeps False s (s.cancelReadback i p) := by
  rw [s.cancelReadback_spec i p]
  refine .of_chans rfl (fun b hb hkeep => ?_) nofun
  dsimp only at hb
  split at hb
  · exact discard_kept hb hkeep
  · exact hb

theorem givePages_keeps (s : State) (l : List PageNo) : Keeps False s (s.givePages l) := by
  obtain ⟨_, _, _, e⟩ := s.givePages_eq l
  rw [e]
  exact .of_eq rfl rfl rfl

theorem freeSegment_keeps (s : State) (i : SegId) : Keeps False s (s.freeSegment i) := by
  refine .trans ?_ (cancelReadback_keeps _ i .b)
  refine .trans ?_ (cancelReadback_keeps _ i .a)
  exact (givePages_keeps s _).trans (setSeg_keeps _ i nofun nofun)

theorem releaseSegment_keeps (s : State) (i : SegId) : Keeps False s (s.releaseSegment i) := by
  refine .ite (.after (freeSegment_keeps _ i) ?_) (setSeg_keeps s i nofun nofun)
  unfold State.raiseFreed
  split <;> exact .of_eq rfl rfl rfl

theorem releaseAll_keeps (s : State) (l : List Entry) : Keeps False s (s.releaseAll l).1 := by
  induction l generalizing s with
  | nil => exact .refl s
  | cons e r ih => exact (releaseSegment_keeps s e.seg).trans (ih _)

theorem endLoad_keeps (s : State) (p : Port) : Keeps False s (s.endLoad p) := by
  refine .trans ?_ (setLoad_keeps _ p _)
  split
  · exact freeSegment_keeps s _
  · exact .refl s

theorem abortOpen_keeps (s : State) (p : Port) : Keeps False s (s.abortOpen p) := by
  have h : Keeps False s (if s.drainRequest p then s.setPassOver p 0 else s) := .ite (.of_eq rfl rfl rfl) (.refl s)
  unfold State.abortOpen
  dsimp only
  split
  · exact h.trans (endLoad_keeps _ p)
  · exact h.trans (.of_eq rfl rfl rfl)

theorem resetLoad_keeps (s : State) (p : Port) : Keeps False s (s.resetLoad p) := by
  have h : Keeps False s
      ((s.dropReadBurst p).setLoad p { (s.dropReadBurst p).loadUnit p with readback := none }) :=
    (dropReadBurst_keeps s p).trans (.of_eq rfl rfl rfl)
  exact .ite (h.trans (abortOpen_keeps _ p)) h

theorem resetOnePort_keeps (s : State) (p : Port) : Keeps False s (s.resetOnePort p) := by
  refine .trans ?_ (setPort_keeps _ p _)
  refine .trans ?_ (setPassOver_keeps _ p 0)
  exact .after (resetLoad_keeps _ p) (.of_eq rfl rfl rfl)

theorem drainDone_keeps (s : State) (p : Port) (b : Burst) : Keeps False s (s.drainDone p b) := by
  have h : ∀ m ls, Keeps False s { s with burst := none, mem := m, loads := ls } := fun _ _ => .of_chans rfl nofun nofun
  exact .after (arbitrate_keeps _) (.ite ((h _ _).trans (endLoad_keeps _ p)) (h _ _))

theorem openOn_keeps (s : State) (p : Port) (i : SegId) (n : Nat) (v : Visibility) (label : Option Half) :
    Keeps False s (s.openOn p i n v label) := by
  obtain ⟨_, e⟩ := s.takePages_eq (pagesFor n)
  unfold State.openOn
  dsimp only
  rw [e]
  exact .of_chans rfl (fun _ hb _ => hb) nofun

theorem closeOn_keeps (s : State) (p : Port) (i : SegId) : Keeps False s (s.closeOn p i).1 := by
  unfold State.closeOn
  dsimp only
  split_ifs
  · exact .of_chans rfl (fun _ hb _ => hb) nofun
  · exact (freeSegment_keeps s i).trans (.of_eq rfl rfl rfl)
  · exact (setSeg_keeps s i nofun nofun).trans ((givePages_keeps _ _).trans (setLoad_keeps _ p _))

theorem deleteOn_keeps {s t : State} {p : Port} {i : SegId} (h : s.deleteOn p i = .ok t) : Keeps False s t := by
  unfold State.deleteOn at h
  dsimp only at h
  split at h
  · cases h
  · split at h <;> cases h
  · split at h <;> cases h
    exact .refl s
  · split at h
    · split at h <;> cases h
      · exact freeSegment_keeps s i
      · exact setSeg_keeps s i nofun nofun
    · cases h

/-! ### Lists (R41, R48 to R52) -/

theorem Chan.setList_follows (k : Chan) (l : List Entry) (h : k.list.length ≤ 64 → l.length ≤ 64) :
    k.Follows { k with list := l } := by
  refine .of_parts (.congr rfl) le_rfl ?_ id id fun hx hk => hk hx
  rintro ⟨h1, h2, h3, h4, h5, h6, h7, hlist⟩
  exact ⟨h1, h2, h3, h4, h5, h6, h7, h hlist⟩

/-- The checks of PUT-ENTRY leave room for an entry appended (R48). -/
theorem putCheck_room {s : State} {p : Port} {c : ChanId} {n : Nat} {a : EntryArg} {e : Entry}
    (h : s.putCheck p c n a = .ok e) :
    n ≤ (s.chan c).list.length ∧ ¬ (n = (s.chan c).list.length ∧ (s.chan c).list.length = 64) := by
  unfold State.putCheck at h
  dsimp only at h
  split at h
  · cases h
  · split_ifs at h with _ hindex hfull
    exact ⟨not_lt.1 hindex, hfull⟩

theorem putOn_keeps {s : State} {p : Port} {c : ChanId} {n : Nat} {a : EntryArg} {e : Entry}
    (h : s.putCheck p c n a = .ok e) : Keeps False s (s.putOn c n e) := by
  obtain ⟨hindex, hfull⟩ := putCheck_room h
  have hput : ∀ l, ((s.chan c).list.length ≤ 64 → l.length ≤ 64) →
      Keeps False s ((s.setChan c { s.chan c with list := l }).bindSegment e.seg) := fun l hl =>
    (setChan_keeps s c (Chan.setList_follows _ l hl)).trans (setSeg_keeps _ _ nofun nofun)
  unfold State.putOn
  dsimp only
  split
  · rename_i hnone
    have hlen := List.getElem?_eq_none_iff.1 hnone
    refine hput _ fun hold => ?_
    rw [List.length_append, List.length_singleton]
    omega
  · refine (hput _ fun hold => ?_).trans (releaseSegment_keeps _ _)
    rw [List.length_set]
    exact hold

theorem trimOn_keeps (s : State) (c : ChanId) (m : Nat) : Keeps False s (s.trimOn c m).1 := by
  refine (setChan_keeps s c (Chan.setList_follows _ _ fun h => ?_)).trans (releaseAll_keeps _ _)
  rw [List.length_take]
  exact (min_le_right _ _).trans h

end Sys2Proof.Machine
end

section
/-! ## Every step keeps the laws of lane words, FIFOs, ranges and marker units (R41, R83, R84, R99, R102, R128, R133,
R138) -/

namespace Sys2Proof.Machine

/-- The commands that can change a reference count or the state of a segment. -/
def recounts : Instr → Bool
  | .openLoad _ _ _ _ _ | .closeLoad _ | .abortLoad _ | .deleteSegment _ _ | .putEntry _ _ _ _ | .trimList _ _ _
  | .resetPort _ | .portReset _ | .drainBurstComplete | .deviceReset => true
  | _ => false

theorem Keeps.of_moving {q : Prop} {s t : State} (h : Keeps False s t) (hq : ¬ q) : Keeps q s t :=
  ⟨h.lane, h.fifo, h.sound, fun hx => absurd hx hq⟩

/-- With nothing done before its response, a frame keeps the laws. -/
theorem respond_keeps {q : Prop} (s : State) (p : Port) (e : Byte) (st : Status) (pl : List Byte) :
    Keeps q s (s.respond p e st pl) := .of_eq rfl rfl rfl

/-! ### The commands on segments and lists -/

theorem execOpenLoad_keeps (p : Port) (seg : Byte) (declared : Long) (vis : Byte) (label : Option Half) {s t : State}
    (h : execOpenLoad p seg declared vis label s = .next t) : Keeps False s t := by
  cases h
  refine .onPort fun u => ?_
  split
  · exact respond_keeps u _ _ _ _
  · exact (openOn_keeps u _ _ _ _ _).answered _ _ _ _

theorem execCloseLoad_keeps (p : Port) {s t : State} (h : execCloseLoad p s = .next t) : Keeps False s t := by
  cases h
  refine .onPort fun u => ?_
  dsimp only
  split
  · exact respond_keeps u _ _ _ _
  · exact .ite (respond_keeps u _ _ _ _) (.ite (respond_keeps u _ _ _ _) ((closeOn_keeps u p _).answered _ _ _ _))

theorem execAbortLoad_keeps (p : Port) {s t : State} (h : execAbortLoad p s = .next t) : Keeps False s t := by
  cases h
  refine .onPort fun u => ?_
  split
  · exact respond_keeps u _ _ _ _
  · exact respond_keeps u _ _ _ _
  · exact (abortOpen_keeps u p).answered _ _ _ _

theorem execDeleteSegment_keeps (p : Port) (seg : Byte) {s t : State} (h : execDeleteSegment p seg s = .next t) :
    Keeps False s t := by
  cases h
  refine .onPort fun u => ?_
  split
  · exact respond_keeps u _ _ _ _
  · rename_i hdelete
    exact ((deleteOn_keeps hdelete).answered _ _ _ _).settled

theorem execPutEntry_keeps (p : Port) (ch index : Byte) (entry : EntryArg) {s t : State}
    (h : execPutEntry p ch index entry s = .next t) : Keeps False s t := by
  cases h
  refine .onPort fun u => ?_
  split
  · exact respond_keeps u _ _ _ _
  · split
    · exact respond_keeps u _ _ _ _
    · rename_i hcheck
      exact ((putOn_keeps hcheck).answered _ _ _ _).settled

theorem execTrimList_keeps (p : Port) (ch newLength : Byte) {s t : State}
    (h : execTrimList p ch newLength s = .next t) : Keeps False s t := by
  cases h
  refine .onPort fun u => ?_
  split
  · exact respond_keeps u _ _ _ _
  · split
    · exact respond_keeps u _ _ _ _
    · exact ((trimOn_keeps u _ _).answered _ _ _ _).settled

theorem Chan.reset_sound : Chan.reset.Sound :=
  ⟨Chan.reset_rangeLaw, Marker.reset_law, Marker.reset_law, fun _ => ⟨rfl, rfl, rfl, rfl⟩⟩

theorem execDeviceReset_keeps {s t : State} (h : execDeviceReset s = .next t) : Keeps False s t := by
  cases h
  exact ⟨fun c _ => (congrArg Chan.LaneLaw (State.reset_chan c)).mpr Chan.reset_laneLaw, fun _ => reset_fifoLaw,
    fun c _ => (congrArg Chan.Sound (State.reset_chan c)).mpr Chan.reset_sound, nofun⟩

/-! ### The commands on channels -/

section
variable {q : Prop}

theorem execSetStatic_keeps (p : Port) (ch : Byte) (args : StaticArgs) {s t : State}
    (h : execSetStatic p ch args s = .next t) : Keeps q s t := by
  cases h
  refine .onPort fun u => ?_
  split
  · exact respond_keeps u _ _ _ _
  · split
    · exact respond_keeps u _ _ _ _
    · rename_i hcheck
      have hdivider := StaticParams.write_divider (staticCheck_write hcheck)
      exact (setChan_keeps u _ (Chan.writeStatic_follows hdivider)).answered _ _ _ _

theorem execSetLive_keeps (p : Port) (ch : Byte) (point : Option Byte) (args : LiveArgs) {s t : State}
    (h : execSetLive p ch point args s = .next t) : Keeps q s t := by
  cases h
  refine .onPort fun u => ?_
  split
  · exact respond_keeps u _ _ _ _
  · split
    · exact respond_keeps u _ _ _ _
    · exact (setChan_keeps u _ (Chan.setLive_follows _ (liveRecord_stepLaw args) _)).answered _ _ _ _

theorem execSetMarker_keeps (p : Port) (ch unit : Byte) (args : MarkerArgs) {s t : State}
    (h : execSetMarker p ch unit args s = .next t) : Keeps q s t := by
  cases h
  refine .onPort fun u => ?_
  split
  · exact respond_keeps u _ _ _ _
  · rename_i hcheck
    obtain ⟨hactive, hwrite⟩ := markerCheck_ok hcheck
    exact (setChan_keeps u _ (Chan.setUnit_follows (ChanState.playing_of_inactive hactive)
      (Marker.write_spec hwrite))).answered _ _ _ _

theorem execArm_keeps (p : Port) (ch : Byte) {s t : State} (h : execArm p ch s = .next t) : Keeps q s t := by
  cases h
  refine .onPort fun u => ?_
  split
  · exact respond_keeps u _ _ _ _
  · split
    · exact respond_keeps u _ _ _ _
    · rename_i c _ hidle
      refine .ite (respond_keeps u _ _ _ _) ?_
      split
      · exact respond_keeps u _ _ _ _
      · exact ((putWork_keeps u c (Work.arm_steady c _) (Work.arm_follows c _ (not_not.1 hidle))).answered
          _ _ _ _).trans (arbitrate_keeps _)

theorem execDisarm_keeps (p : Port) (ch : Byte) {s t : State} (h : execDisarm p ch s = .next t) : Keeps q s t := by
  cases h
  refine .onPort fun u => ?_
  split
  · exact respond_keeps u _ _ _ _
  · rename_i c _
    have hgiven : (u.chan c).state = .arming ∨ (u.chan c).state = .armed → Keeps q u (u.putWork c ((u.work c).disarm c)) :=
      fun hs => putWork_keeps u c (Work.disarm_steady c _) (Work.disarm_follows c _ hs)
    split
    case h_1 hs => exact (hgiven (.inl hs)).answered _ _ _ _
    case h_2 hs => exact (hgiven (.inr hs)).answered _ _ _ _
    all_goals exact respond_keeps u _ _ _ _

theorem execStop_keeps (p : Port) (mask mode : Byte) {s t : State} (h : execStop p mask mode s = .next t) :
    Keeps q s t := by
  cases h
  refine .onPort fun u => ?_
  split
  · exact respond_keeps u _ _ _ _
  · exact .ite (respond_keeps u _ _ _ _) (.ite (respond_keeps u _ _ _ _) ((Keeps.foldl (fun t c =>
      putWork_keeps t c (Work.stopCommand_steady c _ _) (Work.stopCommand_follows c _ _)) _ u).answered _ _ _ _))

theorem execJump_keeps (p : Port) (ch target : Byte) {s t : State} (h : execJump p ch target s = .next t) :
    Keeps q s t := by
  cases h
  refine .onPort fun u => ?_
  split
  · exact respond_keeps u _ _ _ _
  · split
    · exact respond_keeps u _ _ _ _
    · exact ((putWork_keeps u _ (Work.jumpCommand_steady _ _ _) (Work.jumpCommand_follows _ _ _)).answered
        _ _ _ _).trans (arbitrate_keeps _)

theorem execClearFault_keeps (p : Port) (ch : Byte) {s t : State} (h : execClearFault p ch s = .next t) :
    Keeps q s t := by
  cases h
  refine .onPort fun u => ?_
  split
  · exact respond_keeps u _ _ _ _
  · split
    · rename_i hhalted
      exact (setChan_keeps u _ (Chan.clearFault_follows _ hhalted)).answered _ _ _ _
    · exact respond_keeps u _ _ _ _

theorem execSetSyncDriver_keeps (p : Port) (line : Byte) (driver : Option DriverArg) {s t : State}
    (h : execSetSyncDriver p line driver s = .next t) : Keeps q s t := by
  cases h
  refine .onPort fun u => ?_
  split
  · exact respond_keeps u _ _ _ _
  · split
    · exact respond_keeps u _ _ _ _
    · split
      · exact respond_keeps u _ _ _ _
      · exact .ite ((drive_keeps u _ _).answered _ _ _ _) (respond_keeps u _ _ _ _)

theorem discardFrame_keeps (s : State) (p : Port) (n : Nat) : Keeps q s (s.discardFrame p n) :=
  .ite (.onPort fun u => .refl u) (.refl s)

end

/-! ### The completions of bursts and the clock -/

theorem execDrainBurstComplete_keeps {s t : State} (h : execDrainBurstComplete s = .next t) : Keeps False s t := by
  cases h
  split
  · split
    · exact drainDone_keeps s _ _
    · exact .refl s
  · exact .refl s

theorem execFetchBurstComplete_keeps {q : Prop} (us : List Upset) {s t : State}
    (h : execFetchBurstComplete us s = .next t) : Keeps q s t := by
  cases h
  split
  · rename_i b hb
    split
    · rename_i c hreq
      have hdisturb : Keeps q s (s.disturb us) := .of_eq rfl rfl rfl
      exact hdisturb.trans (fetchDone_keeps hb hreq)
    · exact .refl s
  · exact .refl s

theorem execReadbackBurstComplete_keeps {q : Prop} (us : List Upset) {s t : State}
    (h : execReadbackBurstComplete us s = .next t) : Keeps q s t := by
  cases h
  split
  · split
    · have hdisturb : Keeps q s (s.disturb us) := .of_eq rfl rfl rfl
      exact hdisturb.trans (readDone_keeps _ _ _)
    · exact .refl s
  · exact .refl s

theorem execSclkRisingEdge_keeps {q : Prop} (s : State) : ∃ t, execSclkRisingEdge s = .next t ∧ Keeps q s t := by
  refine ⟨_, rfl, (finishEdge_keeps s).trans ?_⟩
  dsimp only
  split <;> exact clocked_keeps _ _ _

/-! ### Every command -/

/-- Every frame a port takes keeps the laws; the commands that load, delete and list segments recount them. -/
theorem exec_frame_keeps {i : Instr} {p : Port} {s t : State} (hi : framePort i = some p) (h : exec i s = .next t) :
    Keeps (recounts i = false) s t := by
  cases i
  case openLoad p seg declared vis label => exact (execOpenLoad_keeps p seg declared vis label h).of_moving nofun
  case closeLoad p => exact (execCloseLoad_keeps p h).of_moving nofun
  case abortLoad p => exact (execAbortLoad_keeps p h).of_moving nofun
  case deleteSegment p seg => exact (execDeleteSegment_keeps p seg h).of_moving nofun
  case putEntry p ch index entry => exact (execPutEntry_keeps p ch index entry h).of_moving nofun
  case trimList p ch newLength => exact (execTrimList_keeps p ch newLength h).of_moving nofun
  case resetPort p =>
    cases h
    exact Keeps.of_moving (.onPort fun u => (resetOnePort_keeps u p).answered _ _ _ _) nofun
  case setStatic p ch args => exact execSetStatic_keeps p ch args h
  case setLive p ch point args => exact execSetLive_keeps p ch point args h
  case setMarker p ch unit args => exact execSetMarker_keeps p ch unit args h
  case arm p ch => exact execArm_keeps p ch h
  case disarm p ch => exact execDisarm_keeps p ch h
  case stop p mask mode => exact execStop_keeps p mask mode h
  case jump p ch target => exact execJump_keeps p ch target h
  case clearFault p ch => exact execClearFault_keeps p ch h
  case setSyncDriver p line driver => exact execSetSyncDriver_keeps p line driver h
  case identify p | queryStore p | querySegment p seg | setEventEnable p kinds | takeEvents p =>
    cases h
    exact .onPort fun u => .of_eq rfl rfl rfl
  case loadData p samples =>
    cases h
    exact .onPort fun u => ((setLoad_keeps u _ _).answered _ _ _ _).trans (arbitrate_keeps _)
  case setVisibility p seg vis =>
    cases h
    refine .onPort fun u => ?_
    split
    · exact respond_keeps u _ _ _ _
    · exact Keeps.answered (by exact setSeg_keeps u _ (fun _ => rfl) fun _ => rfl) _ _ _ _
  case readSegment p seg offset count =>
    cases h
    refine .onPort fun u => ?_
    split
    · exact respond_keeps u _ _ _ _
    · exact .after (arbitrate_keeps _) ((setLoad_keeps u _ _).trans (setPort_keeps _ _ _))
  case queryEntry p ch index =>
    cases h
    refine .onPort fun u => ?_
    split
    · exact respond_keeps u _ _ _ _
    · split <;> exact respond_keeps u _ _ _ _
  case queryList p ch | queryChannel p ch =>
    cases h
    refine .onPort fun u => ?_
    split <;> exact respond_keeps u _ _ _ _
  case claim p mask yieldable take =>
    cases h
    exact .onPort fun u => .ite (respond_keeps u _ _ _ _)
      ((Keeps.foldl (claimOne_keeps p yieldable take) _ u).answered _ _ _ _)
  case release p mask =>
    cases h
    exact .onPort fun u => .ite (respond_keeps u _ _ _ _) ((Keeps.foldl (releaseOne_keeps p) _ u).answered _ _ _ _)
  case applyGroup p mask =>
    cases h
    exact .onPort fun u => .ite (respond_keeps u _ _ _ _) (.ite (respond_keeps u _ _ _ _)
      ((Keeps.foldl (fun v c => setChan_keeps v c (v.chan c).joinGroup_follows) _ u).answered _ _ _ _))
  case start p mask =>
    cases h
    exact .onPort fun u => .ite (respond_keeps u _ _ _ _) (.ite (respond_keeps u _ _ _ _)
      (.ite (respond_keeps u _ _ _ _) ((Keeps.foldl (fun v c => setChan_keeps v c (v.chan c).startCommand_follows) _ u).answered _ _ _ _)))
  case setSourceEdge p source mode =>
    cases h
    refine .onPort fun u => ?_
    split
    · exact respond_keeps u _ _ _ _
    · exact (writeEdgeMode_keeps u _ _ _).answered _ _ _ _
    · exact respond_keeps u _ _ _ _
  case fire p =>
    cases h
    exact .onPort fun u => (trigger_keeps u _).answered _ _ _ _
  all_goals cases hi

/-- Every event that is no frame taken keeps the laws; the end of a write burst and the resets recount segments. -/
theorem exec_event_keeps {i : Instr} {s t : State} (hi : framePort i = none) (h : exec i s = .next t) :
    Keeps (recounts i = false) s t := by
  cases i
  case drainBurstComplete => exact (execDrainBurstComplete_keeps h).of_moving nofun
  case deviceReset => exact (execDeviceReset_keeps h).of_moving nofun
  case portReset p =>
    cases h
    exact ((resetOnePort_keeps s p).trans (setPort_keeps _ p _)).of_moving nofun
  case badFrame p bytes =>
    cases h
    refine .ite (.refl s) ?_
    split
    · exact .onPort fun u => respond_keeps u _ _ _ _
    · exact discardFrame_keeps s p _
  case overrun p =>
    cases h
    exact discardFrame_keeps s p 1
  case readTransaction p clocked =>
    cases h
    refine .ite (.refl s) ?_
    split
    · exact .ite (setPort_keeps s p _) (setPort_keeps s p _)
    · exact setPort_keeps s p _
  case resetRelease levels =>
    cases h
    exact .ite (.of_eq rfl rfl rfl) (.refl s)
  case prstRelease p =>
    cases h
    exact setPort_keeps s p _
  case clockLost =>
    cases h
    split
    · exact clockIsLost_keeps s
    · exact .refl s
  case runLengthReset =>
    cases h
    split
    · exact .of_eq rfl rfl rfl
    · exact .refl s
  case clockRestored =>
    cases h
    split
    · exact clockIsBack_keeps s
    · exact .refl s
  case outputTick c | starved c =>
    cases h
    exact .ite (tickChannel_keeps s c) (.refl s)
  case markerPulseEnd c u =>
    cases h
    exact .ite ((setChan_keeps s c ((s.chan c).endPulse_follows u)).trans (noteLines_keeps s c _)) (.refl s)
  case trgEdge pin level =>
    cases h
    exact .ite (judgePin_keeps s pin level) (.refl s)
  case judgedLevelChange pin level =>
    cases h
    exact .ite (.refl s) (judgePin_keeps s pin level)
  case syncLineEdge line =>
    cases h
    split
    · exact (finishTicks_keeps s).trans (deliverEvent_keeps _ _)
    · exact .refl s
  case fetchBurstComplete us => exact execFetchBurstComplete_keeps us h
  case readbackBurstComplete us => exact execReadbackBurstComplete_keeps us h
  case sclkRisingEdge =>
    obtain ⟨u, hu, hkeeps⟩ := execSclkRisingEdge_keeps (q := recounts .sclkRisingEdge = false) s
    obtain rfl := Host.Outcome.next.inj (hu.symm.trans h)
    exact hkeeps
  all_goals cases hi

theorem exec_keeps {i : Instr} {s t : State} (h : exec i s = .next t) : Keeps (recounts i = false) s t := by
  cases hi : framePort i with
  | none => exact exec_event_keeps hi h
  | some p => exact exec_frame_keeps hi h

/-- Whatever is at the front of the queue, a step keeps the laws of the channels. -/
theorem step_keeps {s t : State} (h : step s = .next t) : Keeps False s t := by
  cases hp : s.pending with
  | nil =>
    cases (step_nil s hp).symm.trans h
    exact refclkPeriod_keeps s
  | cons i q =>
    have hq : Keeps False s { s with pending := q } := .of_eq rfl rfl rfl
    have hi := exec_keeps ((step_cons s i q hp).symm.trans h)
    exact hq.trans ⟨hi.lane, hi.fifo, hi.sound, nofun⟩

/-- Settles O59: what every event of a channel keeps (`Chan.Follows`), every event of the part keeps (`Keeps`). -/
theorem laneFifoMarkerAndRangeLawsKept : Obligations.LaneFifoMarkerAndRangeLawsKept := by
  intro s t h
  have hkeeps := step_keeps h
  exact ⟨fun hlane c => hkeeps.lane c (hlane c), hkeeps.fifo, fun hsound c => hkeeps.sound c (hsound c)⟩

end Sys2Proof.Machine
end

section
/-! ## Every step keeps the reference counts (R17, R45 to R47) -/

namespace Sys2Proof.Machine

/-! ### How many entries name a segment -/

/-- How many entries of a list name segment i (R46). -/
def named (l : List Entry) (i : SegId) : Nat := l.countP fun e => decide (e.seg = i)

theorem named_nil (i : SegId) : named [] i = 0 := rfl

theorem named_append (l m : List Entry) (i : SegId) : named (l ++ m) i = named l i + named m i := List.countP_append ..

theorem named_cons (e : Entry) (l : List Entry) (i : SegId) :
    named (e :: l) i = named l i + if i = e.seg then 1 else 0 := by
  simp [named, List.countP_cons, eq_comm]

/-- An entry of a list replaced: the old one's naming goes and the new one's comes. -/
theorem named_set {l : List Entry} {n : Nat} {old : Entry} (h : l[n]? = some old) (e : Entry) (i : SegId) :
    named (l.set n e) i + (if i = old.seg then 1 else 0) = named l i + if i = e.seg then 1 else 0 := by
  induction l generalizing n with
  | nil => simp at h
  | cons x r ih =>
    cases n with
    | zero =>
      obtain rfl : x = old := by simpa using h
      rw [List.set_cons_zero, named_cons, named_cons]
      omega
    | succ n =>
      have hr := ih (n := n) (by simpa using h)
      rw [List.set_cons_succ, named_cons, named_cons]
      omega

theorem State.namings_congr {s t : State} (h : ∀ c, (t.chan c).list = (s.chan c).list) (i : SegId) :
    t.namings i = s.namings i := by
  have hm : t.chans.toList.map (fun k => named k.list i) = s.chans.toList.map fun k => named k.list i := by
    refine List.ext_getElem (by simp) fun k h1 h2 => ?_
    have hk : k < 8 := by simpa using h1
    simpa [State.chan, Vector.get_eq_getElem] using congrArg (named · i) (h ⟨k, hk⟩)
  exact congrArg List.sum hm

theorem State.namings_of_chans {s t : State} (h : t.chans = s.chans) (i : SegId) : t.namings i = s.namings i :=
  State.namings_congr (fun c => by unfold State.chan; rw [h]) i

/-- A channel replaced: the namings of its own list leave and those of the new one join. -/
theorem State.namings_setChan (s : State) (c : ChanId) (k : Chan) (i : SegId) :
    (s.setChan c k).namings i + named (s.chan c).list i = s.namings i + named k.list i := by
  have h := sum_map_set (fun k : Chan => named k.list i) s.chans.toList c.val k (by simp)
  simp only [State.namings, State.setChan, State.chan, Vector.toList_set]
  exact h

/-! ### Counts that agree with given namings -/

/-- A segment record whose count is n, as its state allows (R17, R46). -/
def SegRec.Counted (r : SegRec) (n : Nat) : Prop :=
  r.refs = n
    ∧ match r.state with
      | .free | .loading => r.refs = 0
      | .ready => True
      | .doomed => 0 < r.refs

/-- Every segment's count is the one given for it. -/
def State.Counted (s : State) (n : SegId → Nat) : Prop := ∀ i, (s.seg i).Counted (n i)

theorem referenceLaw_iff (s : State) : s.ReferenceLaw ↔ s.Counted s.namings := .rfl

theorem State.Counted.referenceLaw {s : State} {n : SegId → Nat} (hs : s.Counted n) (hn : ∀ i, n i = s.namings i) :
    s.ReferenceLaw := (referenceLaw_iff s).2 fun i => hn i ▸ hs i

theorem SegRec.Counted.congr {r x : SegRec} {n : Nat} (h : r.Counted n) (hrefs : x.refs = r.refs)
    (hstate : x.state = r.state) : x.Counted n := by
  unfold SegRec.Counted
  rw [hrefs, hstate]
  exact h

theorem SegRec.counted_freed : SegRec.freed.Counted 0 := ⟨rfl, rfl⟩

theorem SegRec.counted_of_ready {r : SegRec} (h : r.state = .ready) : r.Counted r.refs := by
  refine ⟨rfl, ?_⟩
  rw [h]
  trivial

/-- No entry names a FREE or LOADING segment. -/
theorem SegRec.Counted.unnamed {r : SegRec} {n : Nat} (h : r.Counted n) (hs : r.state = .free ∨ r.state = .loading) :
    r.refs = 0 := by
  obtain ⟨-, hstate⟩ := h
  rcases hs with e | e
  · rw [e] at hstate
    exact hstate
  · rw [e] at hstate
    exact hstate

/-- A segment that an entry names is READY or DOOMED. -/
theorem SegRec.Counted.of_named {r : SegRec} {n : Nat} (h : r.Counted n) (hn : 0 < n) :
    r.state = .ready ∨ r.state = .doomed := by
  have hrefs : r.refs ≠ 0 := by
    rw [h.1]
    omega
  cases hs : r.state with
  | free => exact absurd (h.unnamed (.inl hs)) hrefs
  | loading => exact absurd (h.unnamed (.inr hs)) hrefs
  | ready => exact .inl rfl
  | doomed => exact .inr rfl

theorem State.Counted.setSeg {s : State} {n m : SegId → Nat} (hs : s.Counted n) (i : SegId) {r : SegRec}
    (hr : r.Counted (m i)) (hn : ∀ j, j ≠ i → m j = n j) : (s.setSeg i r).Counted m := by
  intro j
  rw [State.setSeg_seg]
  split
  case isTrue e => exact e ▸ hr
  case isFalse hj => exact hn j hj ▸ hs j

/-- An entry that binds a READY segment (R46). -/
theorem State.Counted.bindSegment {s : State} {n : SegId → Nat} (hs : s.Counted n) {i : SegId}
    (hi : (s.seg i).state = .ready) : (s.bindSegment i).Counted fun j => n j + if j = i then 1 else 0 := by
  refine hs.setSeg i ⟨?_, ?_⟩ fun j hj => by rw [if_neg hj]; rfl
  · rw [if_pos rfl, (hs i).1]
  · dsimp only
    rw [hi]
    trivial

/-- An entry that releases its segment (R47). -/
theorem State.Counted.releaseSegment {s : State} {n m : SegId → Nat} {i : SegId} (hs : s.Counted n)
    (hn : ∀ j, n j = m j + if j = i then 1 else 0) : (s.releaseSegment i).Counted m := by
  have hni : n i = m i + 1 := (hn i).trans (by rw [if_pos rfl])
  have hne : ∀ j, j ≠ i → m j = n j := fun j hj => by rw [hn j, if_neg hj]; rfl
  have hrefs : (s.seg i).refs = m i + 1 := (hs i).1.trans hni
  unfold State.releaseSegment
  dsimp only
  split
  case isTrue h =>
    intro j
    have hseg : (s.raiseFreed i (s.seg i).owner).seg j = s.seg j := by
      unfold State.raiseFreed
      split <;> rfl
    rw [State.freeSegment_seg, hseg]
    split
    case isTrue e =>
      have hm : m i = 0 := by omega
      rw [e, hm]
      exact SegRec.counted_freed
    case isFalse hj => exact hne j hj ▸ hs j
  case isFalse h =>
    refine hs.setSeg i ⟨by dsimp only; omega, ?_⟩ hne
    dsimp only
    rcases (hs i).of_named (by omega) with e | e <;> rw [e]
    · trivial
    · have hle : ¬ (s.seg i).refs ≤ 1 := fun hle => h ⟨e, hle⟩
      dsimp only
      omega

/-- Entries that release their segments one at a time (R47, R52). -/
theorem State.Counted.releaseAll {s : State} {n m : SegId → Nat} {l : List Entry} (hs : s.Counted n)
    (hn : ∀ j, n j = m j + named l j) : (s.releaseAll l).1.Counted m := by
  induction l generalizing s n with
  | nil =>
    have hnm : n = m := funext hn
    exact hnm ▸ hs
  | cons e r ih =>
    refine ih (n := fun j => m j + named r j) (hs.releaseSegment fun j => ?_) fun _ => rfl
    rw [hn j, named_cons]
    omega

/-! ### Changes of one segment, with the lists as they were -/

/-- One segment takes another record that its count fits; no list changes. -/
theorem State.ReferenceLaw.replaced {s t : State} {i : SegId} (hs : s.ReferenceLaw) (hc : t.chans = s.chans)
    (hseg : ∀ j, j ≠ i → t.seg j = s.seg j) (hi : (t.seg i).Counted (s.seg i).refs) : t.ReferenceLaw := by
  refine (referenceLaw_iff t).2 fun j => ?_
  have hj := (referenceLaw_iff s).1 hs j
  rw [State.namings_of_chans hc]
  by_cases e : j = i
  · rw [e] at hj ⊢
    exact hj.1 ▸ hi
  · rw [hseg j e]
    exact hj

/-- No count, no segment state and no list changes. -/
theorem State.ReferenceLaw.same {s t : State} (hs : s.ReferenceLaw)
    (hseg : ∀ i, (t.seg i).refs = (s.seg i).refs ∧ (t.seg i).state = (s.seg i).state)
    (hlist : ∀ c, (t.chan c).list = (s.chan c).list) : t.ReferenceLaw := by
  refine (referenceLaw_iff t).2 fun i => ?_
  rw [State.namings_congr hlist]
  exact ((referenceLaw_iff s).1 hs i).congr (hseg i).1 (hseg i).2

theorem State.ReferenceLaw.of_eq {s t : State} (hs : s.ReferenceLaw) (hseg : t.segs = s.segs) (hc : t.chans = s.chans) :
    t.ReferenceLaw := by
  refine hs.same (fun i => ?_) fun c => ?_
  · unfold State.seg
    rw [hseg]
    exact ⟨rfl, rfl⟩
  · unfold State.chan
    rw [hc]

theorem State.ReferenceLaw.setSeg {s : State} (hs : s.ReferenceLaw) {i : SegId} {r : SegRec}
    (h : r.Counted (s.seg i).refs) : (s.setSeg i r).ReferenceLaw :=
  hs.replaced rfl (fun _ hj => State.setSeg_seg_ne _ _ hj) (by rw [State.setSeg_seg_self]; exact h)

/-- A segment that no entry names becomes FREE (R19). -/
theorem State.ReferenceLaw.freeSegment {s : State} (hs : s.ReferenceLaw) {i : SegId} (h : (s.seg i).refs = 0) :
    (s.freeSegment i).ReferenceLaw := by
  refine hs.replaced (i := i) (s.freeSegment_chans i) (fun j hj => by simp [hj]) ?_
  rw [h, State.freeSegment_seg, if_pos rfl]
  exact SegRec.counted_freed

theorem State.ReferenceLaw.settled {s : State} (hs : s.ReferenceLaw) : s.settleCancelled.ReferenceLaw := by
  obtain ⟨_, _, e⟩ := s.settleCancelled_eq
  rw [e]
  exact hs.of_eq rfl rfl

theorem State.ReferenceLaw.answered {s : State} (hs : s.ReferenceLaw) (p : Port) (e : Byte) (st : Status)
    (pl : List Byte) : (s.respond p e st pl).ReferenceLaw := hs.of_eq rfl rfl

/-! ### Loads (R22, R25 to R29) -/

/-- The law, with no entry naming the segment of an open load (R21, R46). -/
structure State.Referenced (s : State) : Prop where
  law : s.ReferenceLaw
  load : ∀ p i, (s.loadUnit p).seg = some i → (s.seg i).refs = 0

theorem State.ReferenceLaw.referenced {s : State} (hs : s.ReferenceLaw) (hl : s.LoadLaw) : s.Referenced := by
  refine ⟨hs, fun p i hi => ?_⟩
  have hload := hl.2.1 p
  rw [hi] at hload
  exact ((referenceLaw_iff s).1 hs i).unnamed (.inr hload.2.1)

theorem State.Referenced.same {s t : State} (hs : s.Referenced) (hseg : t.segs = s.segs) (hc : t.chans = s.chans)
    (hl : ∀ p, (t.loadUnit p).seg = (s.loadUnit p).seg) : t.Referenced := by
  refine ⟨hs.law.of_eq hseg hc, fun p i hi => ?_⟩
  have hrec : t.seg i = s.seg i := congrArg (fun v : Vector SegRec 256 => v.get i) hseg
  rw [hrec]
  exact hs.load p i (hl p ▸ hi)

theorem State.Referenced.setLoad {s : State} (hs : s.Referenced) {p : Port} {u : LoadUnit}
    (hu : u.seg = (s.loadUnit p).seg) : (s.setLoad p u).Referenced := by
  refine hs.same rfl rfl fun q => ?_
  rw [State.setLoad_loadUnit]
  split
  case isTrue e => exact e ▸ hu
  case isFalse => rfl

theorem State.Referenced.endLoad {s : State} (hs : s.Referenced) (p : Port) : (s.endLoad p).ReferenceLaw := by
  unfold State.endLoad
  dsimp only
  cases hi : (s.loadUnit p).seg with
  | none => exact hs.law.of_eq rfl rfl
  | some i => exact (hs.law.freeSegment (hs.load p i hi)).of_eq rfl rfl

theorem State.Referenced.abortOpen {s : State} (hs : s.Referenced) (p : Port) : (s.abortOpen p).ReferenceLaw := by
  have hpass : (if s.drainRequest p then s.setPassOver p 0 else s).Referenced := by
    split
    · exact hs.same rfl rfl fun _ => rfl
    · exact hs
  unfold State.abortOpen
  dsimp only
  split
  · exact hpass.endLoad p
  · exact hpass.law.of_eq rfl rfl

theorem State.Referenced.resetLoad {s : State} (hs : s.Referenced) (p : Port) : (s.resetLoad p).ReferenceLaw := by
  have hdrop : (s.dropReadBurst p).Referenced := by
    rw [s.dropReadBurst_eq p]
    exact hs.same rfl rfl fun _ => rfl
  have hunit : ((s.dropReadBurst p).setLoad p { (s.dropReadBurst p).loadUnit p with readback := none }).Referenced :=
    hdrop.setLoad rfl
  unfold State.resetLoad
  dsimp only
  split
  · exact hunit.abortOpen p
  · exact hunit.law

theorem State.Referenced.resetOnePort {s : State} (hs : s.Referenced) (p : Port) : (s.resetOnePort p).ReferenceLaw := by
  have hclaims : State.Referenced { s with
      claims := s.claims.map fun (k : Claim) => if k.controller = some p then ⟨none, false⟩ else k } :=
    hs.same rfl rfl fun _ => rfl
  exact (hclaims.resetLoad p).of_eq rfl rfl

theorem State.Referenced.drainDone {s : State} (hs : s.Referenced) (p : Port) (b : Burst) :
    (s.drainDone p b).ReferenceLaw := by
  have hwritten : State.Referenced { s with burst := none, mem := writeSlots b.page s.mem b.slots b.values } :=
    hs.same rfl rfl fun _ => rfl
  have hunit : (State.setLoad { s with burst := none, mem := writeSlots b.page s.mem b.slots b.values } p
      { s.loadUnit p with
        buffer := (s.loadUnit p).buffer.drop b.count, wpos := (s.loadUnit p).wpos + b.count }).Referenced :=
    hwritten.setLoad rfl
  have hdone : ∀ u : State, u.ReferenceLaw → u.arbitrate.ReferenceLaw := fun u hu =>
    hu.same ((arbitrate_keeps (q := True) u).tally trivial) (arbitrate_same u .lists (by decide))
  unfold State.drainDone
  dsimp only
  refine hdone _ ?_
  split
  · exact hunit.endLoad p
  · exact hunit.law

theorem State.ReferenceLaw.openOn {s : State} (hs : s.ReferenceLaw) {p : Port} {i : SegId} {n : Nat} {vis : Byte}
    {v : Visibility} (h : s.openCheck p i n vis = .ok v) (label : Option Half) :
    (s.openOn p i n v label).ReferenceLaw := by
  obtain ⟨-, hfree, -⟩ := openCheck_ok h
  have hrefs := ((referenceLaw_iff s).1 hs i).unnamed (.inl hfree)
  obtain ⟨_, e⟩ := s.takePages_eq (pagesFor n)
  have htaken : (s.takePages (pagesFor n)).ReferenceLaw := by
    rw [e]
    exact hs.of_eq rfl rfl
  have hrec : (s.takePages (pagesFor n)).seg i = s.seg i := (congrArg (State.seg · i) e).trans rfl
  refine State.ReferenceLaw.of_eq (htaken.setSeg (i := i) ?_) rfl rfl
  rw [hrec, hrefs]
  exact ⟨rfl, rfl⟩

theorem State.Referenced.closeOn {s : State} (hs : s.Referenced) {p : Port} {i : SegId}
    (hi : (s.loadUnit p).seg = some i) : (s.closeOn p i).1.ReferenceLaw := by
  have hready : ∀ l pages, (s.setSeg i { s.seg i with state := .ready, length := l, pages := pages }).ReferenceLaw :=
    fun _ _ => hs.law.setSeg (SegRec.counted_of_ready rfl)
  have hgiven : ∀ {u : State}, u.ReferenceLaw → ∀ l, (u.givePages l).ReferenceLaw := fun {u} hu l => by
    obtain ⟨_, _, _, e⟩ := u.givePages_eq l
    rw [e]
    exact hu.of_eq rfl rfl
  unfold State.closeOn
  dsimp only
  split_ifs
  · exact (hready _ _).of_eq rfl rfl
  · exact (hs.law.freeSegment (hs.load p i hi)).of_eq rfl rfl
  · exact (hgiven (hready _ _) _).of_eq rfl rfl

/-- DELETE-SEGMENT frees a segment that no entry names and dooms one that some entry does (R30). -/
theorem State.ReferenceLaw.deleteOn {s t : State} (hs : s.ReferenceLaw) {p : Port} {i : SegId}
    (h : s.deleteOn p i = .ok t) : t.ReferenceLaw := by
  unfold State.deleteOn at h
  dsimp only at h
  split at h
  · cases h
  · split at h <;> cases h
  · split at h <;> cases h
    exact hs
  · split at h
    · split at h <;> cases h
      · rename_i hrefs
        exact hs.freeSegment hrefs
      · rename_i hrefs
        exact hs.setSeg ⟨rfl, Nat.pos_of_ne_zero hrefs⟩
    · cases h

/-! ### Lists (R46, R49, R50, R52) -/

/-- PUT-ENTRY names a READY segment (R48). -/
theorem putCheck_ready {s : State} {p : Port} {c : ChanId} {n : Nat} {a : EntryArg} {e : Entry}
    (h : s.putCheck p c n a = .ok e) : (s.seg e.seg).state = .ready := by
  unfold State.putCheck at h
  dsimp only at h
  split at h
  · cases h
  · split_ifs at h with _ _ _ hready
    rw [← Except.ok.inj h]
    exact not_not.1 hready

@[simp] theorem State.releaseSegment_chans (s : State) (i : SegId) : (s.releaseSegment i).chans = s.chans := by
  obtain ⟨_, _, _, _, _, _, _, _, e⟩ := s.releaseSegment_eq i
  rw [e]

@[simp] theorem State.releaseAll_chans (s : State) (l : List Entry) : (s.releaseAll l).1.chans = s.chans := by
  obtain ⟨_, _, _, _, _, _, _, _, e⟩ := s.releaseAll_eq l
  rw [e]

/-- An entry appended to the list of channel c, or one of it replaced (R49, R50). -/
theorem State.ReferenceLaw.putOn {s : State} (hs : s.ReferenceLaw) {p : Port} {c : ChanId} {n : Nat} {a : EntryArg}
    {e : Entry} (h : s.putCheck p c n a = .ok e) : (s.putOn c n e).ReferenceLaw := by
  have hready := putCheck_ready h
  have hbound : ∀ k, ((s.setChan c k).bindSegment e.seg).Counted fun j => s.namings j + if j = e.seg then 1 else 0 :=
    fun k => State.Counted.bindSegment (s := s.setChan c k) ((referenceLaw_iff s).1 hs) hready
  unfold State.putOn
  dsimp only
  split
  · generalize hk : ({ s.chan c with list := (s.chan c).list ++ [e] } : Chan) = k
    refine (hbound k).referenceLaw fun j => ?_
    have hchan := s.namings_setChan c k j
    have hlist : named k.list j = named (s.chan c).list j + if j = e.seg then 1 else 0 := by
      rw [← hk, named_append, named_cons, named_nil, zero_add]
    rw [State.namings_of_chans (t := (s.setChan c k).bindSegment e.seg) (s := s.setChan c k) rfl]
    omega
  · rename_i old hold
    generalize hk : ({ s.chan c with list := (s.chan c).list.set n e } : Chan) = k
    refine ((hbound k).releaseSegment (m := (s.setChan c k).namings) fun j => ?_).referenceLaw fun j =>
      (State.namings_of_chans (State.releaseSegment_chans ((s.setChan c k).bindSegment e.seg) old.seg) j).symm
    have hchan := s.namings_setChan c k j
    have hlist : named k.list j + (if j = old.seg then 1 else 0)
        = named (s.chan c).list j + if j = e.seg then 1 else 0 := by
      rw [← hk]
      exact named_set hold e j
    omega

/-- A list cut, the entries beyond released (R52). -/
theorem State.ReferenceLaw.trimOn {s : State} (hs : s.ReferenceLaw) (c : ChanId) (m : Nat) :
    (s.trimOn c m).1.ReferenceLaw := by
  unfold State.trimOn
  generalize hk : ({ s.chan c with list := (s.chan c).list.take m } : Chan) = k
  have hcut : (s.setChan c k).Counted s.namings := (referenceLaw_iff s).1 hs
  refine (hcut.releaseAll (m := (s.setChan c k).namings) fun j => ?_).referenceLaw fun j =>
    (State.namings_of_chans (State.releaseAll_chans _ _) j).symm
  have hchan := s.namings_setChan c k j
  have hlist : named (s.chan c).list j = named k.list j + named ((s.chan c).list.drop m) j := by
    rw [← hk, ← named_append, List.take_append_drop]
  omega

/-! ### The commands that recount -/

/-- A frame on a port: what its command keeps, the whole event keeps. -/
theorem onPort_referenceLaw {p : Port} {n : Nat} {s : State} {act : State → State} (hs : s.Referenced)
    (h : ∀ u : State, u.Referenced → (act u).ReferenceLaw) : (onPort p n s act).ReferenceLaw := by
  obtain ⟨ps, e | e⟩ := onPort_cases p n s act <;> rw [e]
  · exact hs.law.of_eq rfl rfl
  · exact h _ (hs.same rfl rfl fun _ => rfl)

theorem exec_recounts {i : Instr} {s t : State} (hi : recounts i = true) (hs : s.Referenced) (h : exec i s = .next t) :
    t.ReferenceLaw := by
  cases i
  case openLoad p seg declared vis label =>
    cases h
    refine onPort_referenceLaw hs fun u hu => ?_
    split
    · exact hu.law.answered _ _ _ _
    · rename_i hcheck
      exact (hu.law.openOn hcheck label).answered _ _ _ _
  case closeLoad p =>
    cases h
    refine onPort_referenceLaw hs fun u hu => ?_
    dsimp only
    split
    · exact hu.law.answered _ _ _ _
    · rename_i seg hseg
      split_ifs
      · exact hu.law.answered _ _ _ _
      · exact hu.law.answered _ _ _ _
      · exact (hu.closeOn hseg).answered _ _ _ _
  case abortLoad p =>
    cases h
    refine onPort_referenceLaw hs fun u hu => ?_
    split
    · exact hu.law.answered _ _ _ _
    · exact hu.law.answered _ _ _ _
    · exact (hu.abortOpen p).answered _ _ _ _
  case deleteSegment p seg =>
    cases h
    refine onPort_referenceLaw hs fun u hu => ?_
    split
    · exact hu.law.answered _ _ _ _
    · rename_i hdelete
      exact ((hu.law.deleteOn hdelete).answered _ _ _ _).settled
  case putEntry p ch index entry =>
    cases h
    refine onPort_referenceLaw hs fun u hu => ?_
    split
    · exact hu.law.answered _ _ _ _
    · split
      · exact hu.law.answered _ _ _ _
      · rename_i hcheck
        exact ((hu.law.putOn hcheck).answered _ _ _ _).settled
  case trimList p ch newLength =>
    cases h
    refine onPort_referenceLaw hs fun u hu => ?_
    split
    · exact hu.law.answered _ _ _ _
    · split
      · exact hu.law.answered _ _ _ _
      · exact ((hu.law.trimOn _ _).answered _ _ _ _).settled
  case resetPort p =>
    cases h
    exact onPort_referenceLaw hs fun u hu => (hu.resetOnePort p).answered _ _ _ _
  case portReset p =>
    cases h
    exact (hs.resetOnePort p).of_eq rfl rfl
  case drainBurstComplete =>
    cases h
    split
    · split
      · exact hs.drainDone _ _
      · exact hs.law
    · exact hs.law
  case deviceReset =>
    cases h
    exact reset_referenceLaw.of_eq rfl rfl
  all_goals cases hi

/-! ### Every command -/

/-- The commands that change lists recount. -/
theorem lists_not_touched {i : Instr} (h : recounts i = false) : .lists ∉ touches i := by
  rw [mem_touches_lists]
  rintro (rfl | ⟨p, ch, x, e, rfl⟩ | ⟨p, ch, m, rfl⟩) <;> cases h

theorem exec_referenceLaw {i : Instr} {s t : State} (hs : s.Referenced) (h : exec i s = .next t) : t.ReferenceLaw := by
  cases hi : recounts i with
  | true => exact exec_recounts hi hs h
  | false => exact hs.law.same ((exec_keeps h).tally hi) (exec_sameBut h .lists (lists_not_touched hi))

/-- Settles O56: the commands that load, delete and list segments recount them (`exec_recounts`); no other changes a
count, a segment state or a list. -/
theorem referenceLawKept : Obligations.ReferenceLawKept := by
  intro s t hload hlaw h
  have hs : s.Referenced := hlaw.referenced hload
  cases hp : s.pending with
  | nil =>
    cases (step_nil s hp).symm.trans h
    exact hlaw.same ((refclkPeriod_keeps (q := True) s).tally trivial) (refclkPeriod_same s .lists (by decide))
  | cons i q =>
    have hq : State.Referenced { s with pending := q } := hs.same rfl rfl fun _ => rfl
    exact exec_referenceLaw hq ((step_cons s i q hp).symm.trans h)

end Sys2Proof.Machine
end

section
/-! ## Commands that release segments (R47 to R52)

A release can raise SEGMENT-FREED on the port that the command came from, so that the answer is formed from the ports as
the release leaves them. An unread response's discard and a release do not look at each other's part of a port's record:
either can come first. -/

namespace Sys2Proof.Machine

/-! ### An unread response discarded before or after -/

/-- What a discard makes of the ports depends on the ports only. -/
theorem State.opened_ports (s : State) (p : Port) :
    ∃ ps, ∀ v : State, v.ports = s.ports → v.opened p = { v with ports := ps } := by
  refine ⟨(s.opened p).ports, fun v hv => ?_⟩
  unfold State.opened State.setPort State.port
  rw [hv]
  split
  · rfl
  · rw [← hv]

@[simp] theorem State.opened_chan (s : State) (p : Port) (c : ChanId) : (s.opened p).chan c = s.chan c :=
  congrArg (fun v : Vector Chan 8 => v.get c) (s.opened_chans p)

@[simp] theorem State.opened_seg (s : State) (p : Port) (i : SegId) : (s.opened p).seg i = s.seg i :=
  congrArg (fun v : Vector SegRec 256 => v.get i) (s.opened_segs p)

@[simp] theorem State.opened_controls (s : State) (p q : Port) (c : ChanId) :
    (s.opened p).controls q c = s.controls q c :=
  congrArg (fun v : Vector Claim 8 => decide ((v.get c).controller = some q)) (s.opened_claims p)

theorem State.setChan_opened (s : State) (p : Port) (c : ChanId) (k : Chan) :
    (s.opened p).setChan c k = (s.setChan c k).opened p := by
  obtain ⟨ps, h⟩ := s.opened_ports p
  rw [h s rfl, h (s.setChan c k) rfl]
  rfl

theorem State.setSeg_opened (s : State) (p : Port) (i : SegId) (r : SegRec) :
    (s.opened p).setSeg i r = (s.setSeg i r).opened p := by
  obtain ⟨ps, h⟩ := s.opened_ports p
  rw [h s rfl, h (s.setSeg i r) rfl]
  rfl

theorem State.freeSegment_opened (s : State) (p : Port) (i : SegId) :
    (s.opened p).freeSegment i = (s.freeSegment i).opened p := by
  obtain ⟨ps, h⟩ := s.opened_ports p
  rw [h s rfl, h (s.freeSegment i) (s.freeSegment_ports i), State.freeSegment_with_ports]

theorem State.bindSegment_opened (s : State) (p : Port) (i : SegId) :
    (s.opened p).bindSegment i = (s.bindSegment i).opened p := by
  unfold State.bindSegment
  rw [State.opened_seg, State.setSeg_opened]

theorem State.raiseTo_opened (s : State) (p q : Port) (src : EventSource) (k : Kind) (d : Detail) :
    (s.opened p).raiseTo q src k d = (s.raiseTo q src k d).opened p := by
  have hproto : ((s.raiseTo q src k d).port p).proto = (s.port p).proto := by cases p <;> cases q <;> rfl
  unfold State.opened
  rw [hproto]
  split
  · cases p <;> cases q <;> rfl
  · rfl

theorem State.raiseFreed_opened (s : State) (p : Port) (i : SegId) (o : Option Port) :
    (s.opened p).raiseFreed i o = (s.raiseFreed i o).opened p := by
  cases o with
  | none => rfl
  | some q => exact s.raiseTo_opened p q _ _ _

theorem State.releaseSegment_opened (s : State) (p : Port) (i : SegId) :
    (s.opened p).releaseSegment i = (s.releaseSegment i).opened p := by
  unfold State.releaseSegment
  rw [State.opened_seg]
  dsimp only
  split
  · rw [State.raiseFreed_opened, State.freeSegment_opened]
  · rw [State.setSeg_opened]

theorem State.releaseAll_opened (s : State) (p : Port) (l : List Entry) :
    (s.opened p).releaseAll l = ((s.releaseAll l).1.opened p, (s.releaseAll l).2) := by
  induction l generalizing s with
  | nil => rfl
  | cons e r ih =>
    have hfrees : (s.opened p).releaseFrees e.seg = s.releaseFrees e.seg := by
      unfold State.releaseFrees
      rw [State.opened_seg]
    unfold State.releaseAll
    rw [State.releaseSegment_opened, ih, hfrees]

theorem State.putOn_opened (s : State) (p : Port) (c : ChanId) (n : Nat) (e : Entry) :
    (s.opened p).putOn c n e = (s.putOn c n e).opened p := by
  unfold State.putOn
  rw [State.opened_chan]
  dsimp only
  split
  · rw [State.setChan_opened, State.bindSegment_opened]
  · rw [State.setChan_opened, State.bindSegment_opened, State.releaseSegment_opened]

theorem State.trimOn_opened (s : State) (p : Port) (c : ChanId) (m : Nat) :
    (s.opened p).trimOn c m = ((s.trimOn c m).1.opened p, (s.trimOn c m).2) := by
  unfold State.trimOn
  rw [State.opened_chan, State.setChan_opened, State.releaseAll_opened]

/-! ### The answer of a command that releases segments -/

/-- Of the ports only event sets have changed. -/
def EventsOnly (s v : State) : Prop := ∀ q, ∃ l, v.port q = { s.port q with events := l }

theorem EventsOnly.of_ports {s v : State} (h : v.ports = s.ports) : EventsOnly s v := fun q =>
  ⟨(s.port q).events, congrArg (fun x : PerPort PortRec => x.get q) h⟩

theorem EventsOnly.trans {s u v : State} (h : EventsOnly s u) (k : EventsOnly u v) : EventsOnly s v := fun q => by
  obtain ⟨_, hu⟩ := h q
  obtain ⟨l, hv⟩ := k q
  exact ⟨l, by rw [hv, hu]⟩

theorem releaseSegment_eventsOnly (s : State) (i : SegId) : EventsOnly s (s.releaseSegment i) := by
  have hrule := releaseSegment_rule s i
  unfold ReleaseRule at hrule
  dsimp only at hrule
  split at hrule
  · obtain ⟨hport, -⟩ := hrule
    exact fun q => ⟨_, hport q⟩
  · obtain ⟨-, -, hrest⟩ := hrule
    exact .of_ports (congrArg State.ports hrest :)

theorem releaseAll_eventsOnly (s : State) (l : List Entry) : EventsOnly s (s.releaseAll l).1 := by
  induction l generalizing s with
  | nil => exact .of_ports rfl
  | cons e r ih => exact (releaseSegment_eventsOnly s e.seg).trans (ih _)

/-- The answer of a command that makes s into v (R167, R169, R171): formed from the event set of v. -/
theorem respond_after {s v : State} (h : EventsOnly s v) (p : Port) (e : Byte) (st : Status) (pl : List Byte) :
    let t := (v.opened p).respond p e st pl
    Answered s t p e st pl ∧ SameLine s t p ∧ (t.port p).events = (v.port p).events ∧ t.port p.other = v.port p.other
      ∧ { t with ports := v.ports } = v := by
  intro t
  obtain ⟨l, hport⟩ := h p
  obtain ⟨hanswered, ⟨hline, hevents, hother⟩, hrest⟩ := respond_opened v p e st pl
  unfold Answered SameLine at *
  rw [hport] at hanswered hline
  exact ⟨hanswered, hline, hevents, hother, hrest⟩

/-! ### The channel byte and the claim (R154) -/

theorem claimedChan_of_lt (s : State) (p : Port) {ch : Byte} (h : ch.toNat < 8) :
    s.claimedChan p ch =
      if (s.claimOf ⟨ch.toNat, h⟩).controller ≠ some p then .error .notController else .ok ⟨ch.toNat, h⟩ := by
  unfold State.claimedChan State.controls
  rw [chanOf_of_lt h]
  by_cases hc : (s.claimOf ⟨ch.toNat, h⟩).controller = some p <;> simp [hc]

theorem claimedChan_of_not_lt (s : State) (p : Port) {ch : Byte} (h : ¬ ch.toNat < 8) :
    s.claimedChan p ch = .error .badArgument := by
  unfold State.claimedChan
  rw [chanOf_of_not_lt h]

theorem claimedChan_opened (s : State) (p q : Port) (ch : Byte) :
    (s.opened p).claimedChan q ch = s.claimedChan q ch := by
  unfold State.claimedChan
  cases chanOf ch with
  | none => rfl
  | some c =>
    dsimp only
    rw [State.opened_controls]

theorem ChanState.active_iff (k : ChanState) : k.active = true ↔ k ≠ .idle ∧ k ≠ .halted := by
  cases k <;> decide

theorem byteOfNat_toNat (b : Byte) : byteOfNat b.toNat = b := BitVec.ofNat_toNat 8 b

end Sys2Proof.Machine
end

section
/-! ## TRIM-LIST (R52) -/

namespace Sys2Proof.Machine

/-- TRIM-LIST before a cancelled readback is answered. -/
def State.trimAnswered (s : State) (p : Port) (ch newLength : Byte) : State :=
  match s.claimedChan p ch with
  | .error e => s.respond p Code.trimList e []
  | .ok c =>
    match s.trimCheck c newLength.toNat with
    | some e => s.respond p Code.trimList e []
    | none =>
      let r := s.trimOn c newLength.toNat
      r.1.respond p Code.trimList .ok
        (ch :: newLength :: byteOfNat ((s.chan c).list.length - newLength.toNat) :: byteOfNat r.2.length
          :: r.2.map fun i => byteOfNat i.val)

/-- The checks of TRIM-LIST with the states of an inactive channel written out. -/
theorem trimCheck_eq (s : State) (c : ChanId) (m : Nat) :
    s.trimCheck c m =
      if (s.chan c).state ≠ .idle ∧ (s.chan c).state ≠ .halted then some .channelActive
      else if (s.chan c).list.length < m then some .badIndex
      else none := by
  unfold State.trimCheck
  simp only [ChanState.active_iff]

/-- A list cut, answered after the releases. -/
theorem trimOn_answered (s : State) (p : Port) (c : ChanId) (m : Nat) (pl : List Byte) :
    let v := s.trimOn c m
    let t := (v.1.opened p).respond p Code.trimList .ok pl
    Answered s t p Code.trimList .ok pl ∧ SameLine s t p ∧ (t.port p).events = (v.1.port p).events
      ∧ t.port p.other = v.1.port p.other ∧ { t with ports := s.ports } = { v.1 with ports := s.ports } := by
  have hevents : EventsOnly s (s.trimOn c m).1 := .trans (.of_ports rfl) (releaseAll_eventsOnly (s.setChan c _) _)
  obtain ⟨hanswered, hline, hset, hother, hrest⟩ := respond_after hevents p Code.trimList .ok pl
  exact ⟨hanswered, hline, hset, hother, (congrArg (fun x : State => { x with ports := s.ports }) hrest :)⟩

theorem trimAnswered_rule (s : State) (p : Port) (ch newLength : Byte) :
    TrimRule s ((s.opened p).trimAnswered p ch newLength) p ch newLength := by
  have hrefused := fun st => respond_opened s p Code.trimList st []
  unfold TrimRule State.trimAnswered
  rw [claimedChan_opened]
  dsimp only
  by_cases h : ch.toNat < 8
  · rw [dif_pos h, claimedChan_of_lt s p h]
    split
    · exact hrefused _
    dsimp only
    rw [trimCheck_eq, State.opened_chan]
    split
    · exact hrefused _
    split
    · exact hrefused _
    dsimp only
    rw [State.trimOn_opened]
    exact trimOn_answered s p ⟨ch.toNat, h⟩ newLength.toNat _
  · rw [dif_neg h, claimedChan_of_not_lt s p h]
    exact hrefused _

/-- Before a command no readback waits for the end of an event (R37). -/
theorem State.ProtocolLaw.not_cancelled {s : State} (h : s.ProtocolLaw) (p : Port) (r : Readback)
    (hr : (s.loadUnit p).readback = some r) : r.mark ≠ .cancelled := ((h p).2.2 r hr).1

/-- A refusal cancels no readback. -/
theorem settled_respond {s : State} (h : ∀ p r, (s.loadUnit p).readback = some r → r.mark ≠ .cancelled) (p : Port)
    (e : Byte) (st : Status) (pl : List Byte) : (s.respond p e st pl).settleCancelled = s.respond p e st pl :=
  State.settleCancelled_of_none _ h

/-- On a port that takes frames no cancelled readback stands where the command acts. -/
theorem opened_not_cancelled {s : State} (h : s.ProtocolLaw) (p q : Port) (n : Nat) (r : Readback)
    (hr : ((((s.clockOut p n).opened p)).loadUnit q).readback = some r) : r.mark ≠ .cancelled := by
  have hloads : ((s.clockOut p n).opened p).loads = s.loads := State.opened_loads _ _
  unfold State.loadUnit at hr
  rw [hloads] at hr
  exact h.not_cancelled q r hr

/-- Settles O22: the checks refuse in order; the releases of a list that is cut are made before the answer is formed. -/
theorem trimsLists : Obligations.TrimsLists := by
  intro s p ch newLength hlaw hl
  refine ⟨((s.took (.trimList p ch newLength)).opened p).trimAnswered p ch newLength,
    congrArg Host.Outcome.next ((onPort_listening _ _ hl).trans ?_), trimAnswered_rule _ p ch newLength⟩
  have hnone := fun q => opened_not_cancelled hlaw p q (frameLength (.trimList p ch newLength))
  rw [State.took_of (i := .trimList p ch newLength) rfl]
  generalize State.opened _ p = w at hnone
  unfold State.trimAnswered
  dsimp only
  cases w.claimedChan p ch with
  | error e => exact (settled_respond hnone p _ _ _).symm
  | ok c =>
    dsimp only
    cases w.trimCheck c newLength.toNat with
    | some e => exact (settled_respond hnone p _ _ _).symm
    | none => rfl

end Sys2Proof.Machine
end

section
/-! ## PUT-ENTRY (R42, R48 to R51) -/

namespace Sys2Proof.Machine

/-! ### The record given (R42, R174) -/

theorem dirOf_spec (b : Byte) :
    match dirOf b with
    | some d => Table.direction d = b ∧ ¬ 2 < b.toNat
    | none => 2 < b.toNat := by
  unfold dirOf
  split_ifs with h0 h1 h2
  · exact ⟨h0.symm, by rw [h0]; decide⟩
  · exact ⟨h1.symm, by rw [h1]; decide⟩
  · exact ⟨h2.symm, by rw [h2]; decide⟩
  · dsimp only
    bv_omega

theorem nextOf_spec (b : Byte) :
    match nextOf b with
    | some n =>
      ¬ (64 ≤ b.toNat ∧ b ≠ 0xFF#8) ∧ (b = 0xFF#8 → n = none)
        ∧ (b.toNat < 64 → ∃ x, n = some x ∧ x.val = b.toNat)
    | none => 64 ≤ b.toNat ∧ b ≠ 0xFF#8 := by
  unfold nextOf
  split_ifs with hnone hlt
  · exact ⟨fun h => h.2 hnone, fun _ => rfl, fun h => by rw [hnone] at h; exact absurd h (by decide)⟩
  · exact ⟨fun h => by omega, fun h => absurd h hnone, fun _ => ⟨_, rfl, rfl⟩⟩
  · exact ⟨by omega, hnone⟩

/-- Check 3 of R48 refuses a record, or the entry has each field as the record gives it. -/
theorem entryOf_spec (arg : EntryArg) :
    match entryOf arg with
    | some e =>
      EntryRule arg e ∧ e.seg = segOf arg.segment
        ∧ ¬ (2 < arg.direction.toNat ∨ (64 ≤ arg.next.toNat ∧ arg.next ≠ 0xFF#8))
    | none => 2 < arg.direction.toNat ∨ (64 ≤ arg.next.toNat ∧ arg.next ≠ 0xFF#8) := by
  have hdir := dirOf_spec arg.direction
  have hnext := nextOf_spec arg.next
  unfold entryOf
  cases hd : dirOf arg.direction with
  | none =>
    rw [hd] at hdir
    exact .inl hdir
  | some d =>
    rw [hd] at hdir
    cases hn : nextOf arg.next with
    | none =>
      rw [hn] at hnext
      exact .inr hnext
    | some n =>
      rw [hn] at hnext
      obtain ⟨hcode, hlow⟩ := hdir
      obtain ⟨hok, habsent, hpresent⟩ := hnext
      exact ⟨⟨rfl, rfl, hcode, rfl, rfl, rfl, rfl, habsent, hpresent⟩, rfl, not_or.2 ⟨hlow, hok⟩⟩

/-! ### The entry written (R49, R50) -/

/-- An entry written at index n of a list, or after its last, and its segment bound (R46). -/
def State.entryBound (s : State) (c : ChanId) (n : Nat) (e : Entry) : State :=
  (s.setChan c { s.chan c with
    list := if n = (s.chan c).list.length then (s.chan c).list ++ [e] else (s.chan c).list.set n e }).setSeg e.seg
    { s.seg e.seg with refs := (s.seg e.seg).refs + 1 }

theorem putOn_of_none {s : State} {c : ChanId} {n : Nat} (e : Entry) (hn : n ≤ (s.chan c).list.length)
    (h : (s.chan c).list[n]? = none) : s.putOn c n e = s.entryBound c n e := by
  have hlen := List.getElem?_eq_none_iff.1 h
  unfold State.putOn State.entryBound
  dsimp only
  rw [h, if_pos (Nat.le_antisymm hn hlen)]
  rfl

theorem putOn_of_some {s : State} {c : ChanId} {n : Nat} (e : Entry) {old : Entry}
    (h : (s.chan c).list[n]? = some old) : s.putOn c n e = (s.entryBound c n e).releaseSegment old.seg := by
  obtain ⟨hlt, -⟩ := List.getElem?_eq_some_iff.1 h
  unfold State.putOn State.entryBound
  dsimp only
  rw [h, if_neg (Nat.ne_of_lt hlt)]
  rfl

theorem State.entryBound_chan (s : State) (c : ChanId) (n : Nat) (e : Entry) :
    ((s.entryBound c n e).chan c).list =
      if n = (s.chan c).list.length then (s.chan c).list ++ [e] else (s.chan c).list.set n e :=
  congrArg Chan.list (State.setChan_chan_self s c _)

/-! ### The payload of R51 -/

theorem putReport_of_none {s : State} {c : ChanId} {n : Nat} (e : Entry) (hn : n ≤ (s.chan c).list.length)
    (h : (s.chan c).list[n]? = none) :
    s.putReport (s.putOn c n e) c n e = byteOfNat c.val :: byteOfNat n :: byteOfNat ((s.chan c).list.length + 1)
      :: byteOfNat e.seg.val :: putWord ((s.seg e.seg).refs + 1) := by
  have hlen := Nat.le_antisymm hn (List.getElem?_eq_none_iff.1 h)
  unfold State.putReport
  rw [h, putOn_of_none e hn h, State.entryBound_chan, if_pos hlen, List.length_append, List.length_singleton,
    List.append_nil]
  unfold State.entryBound
  rw [State.setSeg_seg_self]

theorem putReport_of_some {s : State} {c : ChanId} {n : Nat} (e : Entry) {old : Entry}
    (h : (s.chan c).list[n]? = some old) :
    s.putReport (s.putOn c n e) c n e =
      let v := (s.entryBound c n e).releaseSegment old.seg
      byteOfNat c.val :: byteOfNat n :: byteOfNat (s.chan c).list.length :: byteOfNat e.seg.val
        :: (putWord (v.seg e.seg).refs ++ (byteOfNat old.seg.val :: (putWord (v.seg old.seg).refs
          ++ putFlag (decide ((v.seg old.seg).state = .free))))) := by
  obtain ⟨hlt, -⟩ := List.getElem?_eq_some_iff.1 h
  have hchan : (((s.entryBound c n e).releaseSegment old.seg).chan c).list.length = (s.chan c).list.length := by
    unfold State.chan
    rw [State.releaseSegment_chans]
    change ((s.entryBound c n e).chan c).list.length = _
    rw [State.entryBound_chan, if_neg (Nat.ne_of_lt hlt), List.length_set]
    rfl
  unfold State.putReport
  rw [h, putOn_of_some e h, hchan]

/-! ### The checks of R48 -/

/-- PUT-ENTRY before a cancelled readback is answered. -/
def State.putAnswered (s : State) (p : Port) (ch index : Byte) (arg : EntryArg) : State :=
  match s.claimedChan p ch with
  | .error e => s.respond p Code.putEntry e [ch, index]
  | .ok c =>
    match s.putCheck p c index.toNat arg with
    | .error e => s.respond p Code.putEntry e [ch, index]
    | .ok e =>
      (s.putOn c index.toNat e).respond p Code.putEntry .ok
        (s.putReport (s.putOn c index.toNat e) c index.toNat e)

theorem SegRec.hiddenFrom_iff (r : SegRec) (p : Port) :
    r.hiddenFrom p = true ↔ r.owner ≠ some p ∧ r.vis = some .ownerOnly := by
  simp [SegRec.hiddenFrom]

/-- The checks of PUT-ENTRY on a record that check 3 passes, with the conditions written out. -/
theorem putCheck_of_entry (s : State) (p : Port) (c : ChanId) (n : Nat) {arg : EntryArg} {e : Entry}
    (h : entryOf arg = some e) :
    s.putCheck p c n arg =
      if (s.chan c).state ≠ .idle ∧ (s.chan c).state ≠ .halted then .error .channelActive
      else if (s.chan c).list.length < n then .error .badIndex
      else if n = (s.chan c).list.length ∧ (s.chan c).list.length = 64 then .error .listFull
      else if (s.seg e.seg).state ≠ .ready then .error .segmentState
      else if (s.seg e.seg).owner ≠ some p ∧ (s.seg e.seg).vis = some .ownerOnly then .error .notVisible
      else .ok e := by
  unfold State.putCheck
  rw [h]
  simp only [ChanState.active_iff, SegRec.hiddenFrom_iff]

theorem putCheck_of_no_entry (s : State) (p : Port) (c : ChanId) (n : Nat) {arg : EntryArg} (h : entryOf arg = none) :
    s.putCheck p c n arg = .error .badArgument := by
  unfold State.putCheck
  rw [h]

theorem putCheck_opened (s : State) (p q : Port) (c : ChanId) (n : Nat) (arg : EntryArg) :
    (s.opened p).putCheck q c n arg = s.putCheck q c n arg := by
  unfold State.putCheck
  cases entryOf arg with
  | none => rfl
  | some e =>
    dsimp only
    rw [State.opened_chan, State.opened_seg]

theorem putReport_opened (s v : State) (p : Port) (c : ChanId) (n : Nat) (e : Entry) :
    (s.opened p).putReport (v.opened p) c n e = s.putReport v c n e := by
  unfold State.putReport
  simp only [State.opened_chan, State.opened_seg]

/-! ### The rule of PUT-ENTRY -/

/-- An entry appended: the answer is formed from the ports as they were. -/
theorem putOn_appended {s : State} {c : ChanId} {n : Nat} (e : Entry) (hn : n ≤ (s.chan c).list.length)
    (h : (s.chan c).list[n]? = none) (p : Port) (pl : List Byte) :
    let t := ((s.putOn c n e).opened p).respond p Code.putEntry .ok pl
    SameLine s t p ∧ Answered s t p Code.putEntry .ok pl ∧ OnlyAnswer s t p
      ∧ { t with ports := s.ports } = s.entryBound c n e := by
  rw [putOn_of_none e hn h]
  obtain ⟨hanswered, hline, hevents, hother, hrest⟩ :=
    respond_after (v := s.entryBound c n e) (.of_ports rfl) p Code.putEntry .ok pl
  exact ⟨hline, hanswered, ⟨hline, hevents, hother⟩, hrest⟩

/-- An entry replaced: the answer is formed after the release of the old one. -/
theorem putOn_replaced {s : State} {c : ChanId} {n : Nat} (e : Entry) {old : Entry}
    (h : (s.chan c).list[n]? = some old) (p : Port) (pl : List Byte) :
    let v := (s.entryBound c n e).releaseSegment old.seg
    let t := ((s.putOn c n e).opened p).respond p Code.putEntry .ok pl
    SameLine s t p ∧ Answered s t p Code.putEntry .ok pl ∧ (t.port p).events = (v.port p).events
      ∧ t.port p.other = v.port p.other ∧ { t with ports := s.ports } = { v with ports := s.ports } := by
  have hset : EventsOnly s ((s.entryBound c n e).releaseSegment old.seg) :=
    .trans (.of_ports rfl) (releaseSegment_eventsOnly (s.entryBound c n e) old.seg)
  rw [putOn_of_some e h]
  obtain ⟨hanswered, hline, hevents, hother, hrest⟩ := respond_after hset p Code.putEntry .ok pl
  exact ⟨hline, hanswered, hevents, hother, (congrArg (fun x : State => { x with ports := s.ports }) hrest :)⟩

theorem putAnswered_rule (s : State) (p : Port) (ch index : Byte) (arg : EntryArg) :
    PutEntryRule s ((s.opened p).putAnswered p ch index arg) p ch index arg := by
  have hrefused := fun st => respond_opened s p Code.putEntry st [ch, index]
  unfold PutEntryRule State.putAnswered
  rw [claimedChan_opened]
  dsimp only
  by_cases h : ch.toNat < 8
  · rw [dif_pos h, claimedChan_of_lt s p h]
    by_cases hclaim : (s.claimOf ⟨ch.toNat, h⟩).controller ≠ some p
    · rw [if_pos hclaim, if_pos hclaim]
      exact hrefused _
    rw [if_neg hclaim, if_neg hclaim]
    dsimp only
    rw [putCheck_opened]
    have hspec := entryOf_spec arg
    cases he : entryOf arg with
    | none =>
      rw [he] at hspec
      rw [putCheck_of_no_entry s p _ _ he, if_pos hspec]
      exact hrefused _
    | some e =>
      rw [he] at hspec
      obtain ⟨hrule, hseg, hok⟩ := hspec
      rw [putCheck_of_entry s p _ _ he, if_neg hok, ← hseg]
      by_cases hactive : (s.chan ⟨ch.toNat, h⟩).state ≠ .idle ∧ (s.chan ⟨ch.toNat, h⟩).state ≠ .halted
      · rw [if_pos hactive, if_pos hactive]
        exact hrefused _
      rw [if_neg hactive, if_neg hactive]
      by_cases hindex : (s.chan ⟨ch.toNat, h⟩).list.length < index.toNat
      · rw [if_pos hindex, if_pos hindex]
        exact hrefused _
      rw [if_neg hindex, if_neg hindex]
      by_cases hfull : index.toNat = (s.chan ⟨ch.toNat, h⟩).list.length ∧ (s.chan ⟨ch.toNat, h⟩).list.length = 64
      · rw [if_pos hfull, if_pos hfull]
        exact hrefused _
      rw [if_neg hfull, if_neg hfull]
      by_cases hstate : (s.seg e.seg).state ≠ .ready
      · rw [if_pos hstate, if_pos hstate]
        exact hrefused _
      rw [if_neg hstate, if_neg hstate]
      by_cases hhidden : (s.seg e.seg).owner ≠ some p ∧ (s.seg e.seg).vis = some .ownerOnly
      · rw [if_pos hhidden, if_pos hhidden]
        exact hrefused _
      rw [if_neg hhidden, if_neg hhidden]
      dsimp only
      rw [State.putOn_opened, putReport_opened]
      refine ⟨e, hrule, ?_⟩
      have hchan : byteOfNat ch.toNat = ch := byteOfNat_toNat ch
      have hbyte : byteOfNat e.seg.val = arg.segment := by
        rw [hseg]
        exact byteOfNat_toNat arg.segment
      cases hold : (s.chan ⟨ch.toNat, h⟩).list[index.toNat]? with
      | none =>
        rw [putReport_of_none e (not_lt.1 hindex) hold, hchan, hbyte, byteOfNat_toNat]
        exact putOn_appended e (not_lt.1 hindex) hold p _
      | some old =>
        rw [putReport_of_some e hold, hchan, hbyte, byteOfNat_toNat]
        exact putOn_replaced e hold p _
  · rw [dif_neg h, claimedChan_of_not_lt s p h]
    exact hrefused _

/-- Settles O21: the checks refuse in order; the release of an entry that is replaced is made before the answer is
formed. -/
theorem putsEntries : Obligations.PutsEntries := by
  intro s p ch index arg hlaw hl
  refine ⟨((s.took (.putEntry p ch index arg)).opened p).putAnswered p ch index arg,
    congrArg Host.Outcome.next ((onPort_listening _ _ hl).trans ?_), putAnswered_rule _ p ch index arg⟩
  have hnone := fun q => opened_not_cancelled hlaw p q (frameLength (.putEntry p ch index arg))
  rw [State.took_of (i := .putEntry p ch index arg) rfl]
  generalize State.opened _ p = w at hnone
  unfold State.putAnswered
  dsimp only
  cases w.claimedChan p ch with
  | error e => exact (settled_respond hnone p _ _ _).symm
  | ok c =>
    dsimp only
    cases w.putCheck p c index.toNat arg with
    | error e => exact (settled_respond hnone p _ _ _).symm
    | ok e => rfl

end Sys2Proof.Machine
end

section
/-! ## What one output tick is made of (R58, R115, R135) -/

namespace Sys2Proof.Machine

/-- The first part of the tick of channel c: its word placed or left, its markers, its position. -/
def State.tickWordOf (s : State) (c : ChanId) : Work :=
  ((s.work c).tickWord s.segs (s.contribution (partner c))).1

/-- What the first part leaves to be done. -/
def State.tickRestOf (s : State) (c : ChanId) : Rest :=
  ((s.work c).tickWord s.segs (s.contribution (partner c))).2

/-- The second part of the tick of channel c, with the causes it raises. -/
def State.tickEndOf (s : State) (c : ChanId) : Work :=
  ({ s.tickWordOf c with raised := [] } : Work).tickEnd s.segs c (s.tickRestOf c)

/-- The part after the first part of the tick of channel c, its line changes noted. -/
def State.worded (s : State) (c : ChanId) : State := s.noteLines c (s.putWork c (s.tickWordOf c))

/-- The part after the tick of channel c, before the arbiter decides. -/
def State.ticked (s : State) (c : ChanId) : State :=
  ((s.worded c).noteLines c ((s.worded c).putWork c (s.tickEndOf c))).setTick c (.done (s.contribution c))

theorem State.worded_work (s : State) (c : ChanId) : (s.worded c).work c = { s.tickWordOf c with raised := [] } := by
  obtain ⟨hchan, hburst, -, -⟩ := s.putWork_spec c (s.tickWordOf c)
  have h : (s.putWork c (s.tickWordOf c)).work c = { s.tickWordOf c with raised := [] } := by
    unfold State.work
    rw [hchan, hburst, if_pos rfl]
  exact h

theorem State.worded_segs (s : State) (c : ChanId) : (s.worded c).segs = s.segs := by
  obtain ⟨-, -, -, h⟩ := s.putWork_spec c (s.tickWordOf c)
  exact (congrArg State.segs h :)

theorem State.tickOne_ticked (s : State) (c : ChanId) : s.tickOne c = (s.ticked c).arbitrate := by
  have h : (s.worded c).putWork c (((s.worded c).work c).tickEnd (s.worded c).segs c (s.tickRestOf c))
      = (s.worded c).putWork c (s.tickEndOf c) := by
    rw [s.worded_work, s.worded_segs]
    rfl
  unfold State.ticked
  rw [← h]
  rfl

theorem State.lineLevel_congr {s t : State} (hd : t.drivers = s.drivers) (hc : ∀ c, t.chan c = s.chan c) (l : Fin 4) :
    t.lineLevel l = s.lineLevel l := by
  unfold State.lineLevel
  rw [hd]
  cases s.drivers.get l with
  | none => rfl
  | some x => exact congrArg (fun k : Chan => (k.unit x.2).active) (hc x.1)

/-- Which lines change is seen in the drivers, the edge modes and the channels. -/
theorem lineChanges_congr {s s' t t' : State} (hs : ∀ l, s'.lineLevel l = s.lineLevel l)
    (ht : ∀ l, t'.lineLevel l = t.lineLevel l) (hm : t'.modes = t.modes) : lineChanges s' t' = lineChanges s t := by
  unfold lineChanges
  simp only [hs, ht, hm]

theorem countedLines_eq (s t : State) : countedLines s t = lineChanges s t := rfl

/-- The whole of a tick but for its two parts: what they leave goes into the channel, the burst in flight, the event sets,
the line events and the tick record. -/
theorem State.ticked_spec (s : State) (c : ChanId) :
    (∀ d, (s.ticked c).chan d = if d = c then (s.tickEndOf c).ch else s.chan d)
      ∧ (s.ticked c).burst = (s.tickEndOf c).burst
      ∧ (∀ p, (s.ticked c).port p = { s.port p with
          events := ((s.tickWordOf c).raised ++ (s.tickEndOf c).raised).foldl
            (fun l k => raiseIn l (.chan c) k .nothing) (s.port p).events })
      ∧ (∀ d, (s.ticked c).tickOf d = if d = c then .done (s.contribution c) else s.tickOf d)
      ∧ (s.ticked c).syncEvents = s.syncEvents ++ lineEvents c s (s.setChan c (s.tickWordOf c).ch)
          ++ lineEvents c (s.setChan c (s.tickWordOf c).ch) (s.setChan c (s.tickEndOf c).ch)
      ∧ { s.ticked c with
          chans := s.chans, burst := s.burst, ports := s.ports, ticks := s.ticks, syncEvents := s.syncEvents } = s := by
  obtain ⟨hchan1, -, hport1, hrest1⟩ := s.putWork_spec c (s.tickWordOf c)
  obtain ⟨hchan2, hburst2, hport2, hrest2⟩ := (s.worded c).putWork_spec c (s.tickEndOf c)
  have hwchan : ∀ d, (s.worded c).chan d = (s.setChan c (s.tickWordOf c).ch).chan d := fun d =>
    (hchan1 d).trans (s.setChan_chan c d _).symm
  have hchan : ∀ d, (s.ticked c).chan d = if d = c then (s.tickEndOf c).ch else s.chan d := fun d => by
    refine (hchan2 d).trans ?_
    rw [hwchan, State.setChan_chan]
    split_ifs <;> rfl
  have hwdrivers : (s.worded c).drivers = s.drivers := (congrArg State.drivers hrest1 :)
  have hwmodes : (s.worded c).modes = s.modes := (congrArg State.modes hrest1 :)
  have hdrivers : (s.ticked c).drivers = s.drivers := (congrArg State.drivers hrest2 :).trans hwdrivers
  have hmodes : (s.ticked c).modes = s.modes := (congrArg State.modes hrest2 :).trans hwmodes
  have hlevel1 := State.lineLevel_congr (s := s.setChan c (s.tickWordOf c).ch) hwdrivers hwchan
  have hlevel2 := State.lineLevel_congr (s := s.setChan c (s.tickEndOf c).ch) hdrivers fun d =>
    (hchan d).trans (s.setChan_chan c d _).symm
  refine ⟨hchan, hburst2, fun p => ?_, fun d => ?_, ?_, ?_⟩
  · refine (hport2 p).trans ?_
    rw [List.foldl_append]
    exact congrArg (fun r : PortRec => { r with
      events := (s.tickEndOf c).raised.foldl (fun l k => raiseIn l (.chan c) k .nothing) r.events }) (hport1 p)
  · refine (State.setTick_tickOf _ c d _).trans ?_
    have h1 : (s.worded c).ticks = s.ticks := (congrArg State.ticks hrest1 :)
    have h2 : ((s.worded c).putWork c (s.tickEndOf c)).ticks = s.ticks := (congrArg State.ticks hrest2 :).trans h1
    split
    · rfl
    · exact congrArg (fun k : Vector TickStatus 8 => k.get d) h2
  · have h1 : (s.worded c).syncEvents = s.syncEvents ++ lineEvents c s (s.worded c) :=
      congrArg (· ++ lineEvents c s (s.worded c)) (congrArg State.syncEvents hrest1 :)
    have h2 : (s.ticked c).syncEvents = (s.worded c).syncEvents ++ lineEvents c (s.worded c) (s.ticked c) :=
      congrArg (· ++ lineEvents c (s.worded c) (s.ticked c)) (congrArg State.syncEvents hrest2 :)
    rw [h2, h1]
    unfold lineEvents
    rw [lineChanges_congr (fun _ => rfl) hlevel1 hwmodes, lineChanges_congr hlevel1 hlevel2 hmodes]
  · obtain ⟨_, _, _, _, h1⟩ := s.noteWork_eq c (s.tickWordOf c)
    obtain ⟨_, _, _, _, h2⟩ := (s.worded c).noteWork_eq c (s.tickEndOf c)
    unfold State.ticked
    rw [h2, show s.worded c = _ from h1]
    rfl

end Sys2Proof.Machine
end

section
/-! ### What a tick leaves alone -/

namespace Sys2Proof.Machine

theorem State.tickOne_tickOf (s : State) (c d : ChanId) :
    (s.tickOne c).tickOf d = if d = c then .done (s.contribution c) else s.tickOf d := by
  obtain ⟨-, -, -, htick, -, -⟩ := s.ticked_spec c
  rw [← htick d, s.tickOne_ticked]
  exact congrArg (fun k : Vector TickStatus 8 => k.get d) (s.ticked c).arbitrate_ticks

theorem State.tickOne_tickOf_ne (s : State) {c d : ChanId} (h : d ≠ c) : (s.tickOne c).tickOf d = s.tickOf d := by
  rw [State.tickOne_tickOf, if_neg h]

/-- Of another channel a tick can change the cursor and the pending target only, by its grant decision. -/
theorem State.tickOne_chan_ne (s : State) {c d : ChanId} (h : d ≠ c) :
    { (s.tickOne c).chan d with cursor := (s.chan d).cursor, target := (s.chan d).target } = s.chan d := by
  obtain ⟨hchan, -, -, -, -, -⟩ := s.ticked_spec c
  have hd : (s.ticked c).chan d = s.chan d := (hchan d).trans (if_neg h)
  rw [s.tickOne_ticked, ← hd]
  exact (s.ticked c).arbitrate_chan d

/-- The channel's own tick, but for its grant decision, makes of it what its two parts do. -/
theorem State.tickOne_chan_self (s : State) (c : ChanId) :
    { (s.tickOne c).chan c with cursor := (s.tickEndOf c).ch.cursor, target := (s.tickEndOf c).ch.target }
      = (s.tickEndOf c).ch := by
  obtain ⟨hchan, -, -, -, -, -⟩ := s.ticked_spec c
  have hc : (s.ticked c).chan c = (s.tickEndOf c).ch := (hchan c).trans (if_pos rfl)
  rw [s.tickOne_ticked, ← hc]
  exact (s.ticked c).arbitrate_chan c

end Sys2Proof.Machine
end

section
/-! ## What an event of one channel raises, and what becomes of its pending record (R138, R139, R143, R178) -/

namespace Sys2Proof.Machine

/-- The step in use and the step staged are within their bound (R138). -/
def Chan.StepsBounded (k : Chan) : Prop := k.live.step ≤ 1048576 ∧ ∀ n ∈ k.staged.step, n ≤ 1048576

/-- The causes are kinds that a channel has (R178). -/
def OfChannel (l : List Kind) : Prop := ∀ k ∈ l, k.code ≤ 10

/-- An event raises causes of a channel only, writes the live parameters only from the record, and keeps the bound on the
step. -/
structure Work.Records (w v : Work) : Prop where
  raised : OfChannel w.raised → OfChannel v.raised
  live : w.ch.staged.isEmpty = true → v.ch.staged.isEmpty = true ∧ v.ch.live = w.ch.live
  steps : w.ch.StepsBounded → v.ch.StepsBounded

namespace Work.Records

variable {w v x : Work}

theorem trans (h : w.Records v) (k : v.Records x) : w.Records x :=
  ⟨k.raised ∘ h.raised, fun he => ⟨(k.live (h.live he).1).1, (k.live (h.live he).1).2.trans (h.live he).2⟩,
    k.steps ∘ h.steps⟩

/-- The same, for a step whose end is known before its middle. -/
theorem after (k : v.Records x) (h : w.Records v) : w.Records x := h.trans k

/-- An event that raises nothing and touches neither the record nor the live parameters. -/
theorem quiet (hr : v.raised = w.raised) (hs : v.ch.staged = w.ch.staged) (hl : v.ch.live = w.ch.live) :
    w.Records v := by
  refine ⟨hr ▸ id, fun he => ⟨hs ▸ he, hl⟩, fun h => ?_⟩
  unfold Chan.StepsBounded
  rw [hs, hl]
  exact h

theorem refl (w : Work) : w.Records w := quiet rfl rfl rfl

theorem ite {q : Prop} [Decidable q] (h : w.Records v) (k : w.Records x) : w.Records (if q then v else x) := by
  split
  · exact h
  · exact k

end Work.Records

theorem Work.raise_records (w : Work) {k : Kind} (h : k.code ≤ 10) : w.Records (w.raise k) := by
  refine ⟨fun hw j hj => ?_, fun he => ⟨he, rfl⟩, id⟩
  rcases List.mem_append.1 hj with hj | hj
  · exact hw j hj
  · rw [List.mem_singleton.1 hj]
    exact h

theorem Work.applyStaged_records (w : Work) : w.Records w.applyStaged := by
  unfold Work.applyStaged
  split
  · exact .refl w
  · rename_i hfull
    refine .after (Work.raise_records _ (by decide)) ⟨id, fun he => absurd he hfull, ?_⟩
    rintro ⟨hlive, hstaged⟩
    refine ⟨?_, nofun⟩
    change w.ch.staged.step.getD w.ch.live.step ≤ 1048576
    cases hs : w.ch.staged.step with
    | none => exact hlive
    | some n => exact hstaged n hs

/-- An applied record is gone (R143). -/
theorem Work.applyStaged_isEmpty (w : Work) : w.applyStaged.ch.staged.isEmpty = true := by
  unfold Work.applyStaged
  split
  · assumption
  · rfl

theorem Work.startOfTick_records (w : Work) : w.Records w.startOfTick :=
  .ite (.after (Work.applyStaged_records _) (.quiet rfl rfl rfl)) (.quiet rfl rfl rfl)

theorem Work.applyAtPass_records (w : Work) : w.Records w.applyAtPass := .ite w.applyStaged_records (.refl w)

theorem Work.applyAtEntry_records (w : Work) : w.Records w.applyAtEntry := .ite w.applyStaged_records (.refl w)

theorem Work.flush_records (c : ChanId) (w : Work) : w.Records (w.flush c) := .quiet rfl rfl rfl

theorem Work.refetchFrom_records (c : ChanId) (t : EntryIx) (w : Work) : w.Records (w.refetchFrom c t) :=
  .quiet rfl rfl rfl

theorem Work.dropPass_records (c : ChanId) (w : Work) : w.Records (w.dropPass c) := by
  unfold Work.dropPass
  split
  · exact .quiet rfl rfl rfl
  · have hframe := fun cur => Chan.cursorPastPass_frame { w.ch with fifo := [] } cur
    refine .quiet rfl ?_ ?_ <;> dsimp only <;> split
    · rfl
    · split
      · exact (congrArg Chan.staged (hframe _) :)
      · rfl
    · rfl
    · split
      · exact (congrArg Chan.live (hframe _) :)
      · rfl

theorem Work.enterIdle_records (c : ChanId) (w : Work) : w.Records (w.enterIdle c) := by
  unfold Work.enterIdle
  refine .after (Work.applyStaged_records _) ?_
  dsimp only [Chan.silenceMarkers, Chan.clearLatches]
  exact (w.flush_records c).trans (.quiet rfl rfl rfl)

theorem Work.halt_records (c : ChanId) (cause : FaultCause) (w : Work) : w.Records (w.halt c cause) := by
  unfold Work.halt
  refine .after (Work.applyStaged_records _) (.after (Work.raise_records _ (by decide)) ?_)
  dsimp only [Chan.place, Chan.silenceMarkers, Chan.clearLatches]
  exact (w.flush_records c).trans (.quiet rfl rfl rfl)

theorem Work.startEntry_records (w : Work) : w.Records w.startEntry := by
  unfold Work.startEntry
  dsimp only
  split <;> exact .after (Work.applyAtEntry_records _) (.quiet rfl rfl rfl)

theorem Work.enterEntry_records (t : EntryIx) (carry : Nat) (w : Work) : w.Records (w.enterEntry t carry) :=
  .ite (.after (Work.startEntry_records _) (.quiet rfl rfl rfl))
    (.ite (.after (Work.startEntry_records _) (.quiet rfl rfl rfl)) (.quiet rfl rfl rfl))

theorem Work.listEnd_records (c : ChanId) (carry : Nat) (afterLeave : Bool) (w : Work) :
    w.Records (w.listEnd c carry afterLeave) := by
  refine .ite (.after (Work.enterEntry_records _ _ _) (.ite (w.refetchFrom_records c 0) (.refl w))) ?_
  have h : w.Records ((({ w with ch := { w.ch with pos := carry } }.enterIdle c)).raise .listDone) :=
    .after (Work.raise_records _ (by decide)) (.after (Work.enterIdle_records c _) (.quiet rfl rfl rfl))
  exact .ite (h.trans (Work.raise_records _ (by decide))) h

theorem Work.afterPass_records (c : ChanId) (carry : Nat) (w : Work) : w.Records (w.afterPass c carry) := by
  unfold Work.afterPass
  dsimp only
  refine .ite (.after (Work.raise_records _ (by decide)) (.after (Work.enterIdle_records c _) (.quiet rfl rfl rfl))) ?_
  split
  · exact .after (Work.enterEntry_records _ _ _) (.quiet rfl rfl rfl)
  · refine .ite ?_ (.ite ?_ ?_)
    · split
      · exact .after (Work.enterEntry_records _ _ _) (.after (Work.refetchFrom_records c _ _) (.quiet rfl rfl rfl))
      · exact .after (Work.listEnd_records c _ _ _) (.quiet rfl rfl rfl)
    · split <;> exact .after (Work.applyAtPass_records _) (.quiet rfl rfl rfl)
    · split
      · exact Work.enterEntry_records _ _ _
      · exact Work.listEnd_records c _ _ _

theorem Work.passEnd_records (c : ChanId) (length : Nat) (w : Work) : w.Records (w.passEnd c length) :=
  (w.dropPass_records c).trans (.after (Work.afterPass_records c _ _) (.quiet rfl rfl rfl))

theorem Work.beginTick_records (w : Work) : w.Records w.beginTick.1 := by
  unfold Work.beginTick
  split
  · exact .refl w
  · exact .refl w
  · exact .refl w
  · split
    · exact .after (Work.enterEntry_records _ _ _) (.after (Work.raise_records _ (by decide)) (.quiet rfl rfl rfl))
    · exact .refl w
  · exact w.startOfTick_records
  · exact w.startOfTick_records
  · dsimp only
    split_ifs
    · exact w.startOfTick_records
    · exact w.startOfTick_records.trans (.after (Work.startEntry_records _) (.quiet rfl rfl rfl))
    · exact w.startOfTick_records.trans (.after (Work.startEntry_records _) (.quiet rfl rfl rfl))
    · exact w.startOfTick_records

theorem Work.clipTick_records (clamped : Bool) (w : Work) : w.Records (w.clipTick clamped) :=
  .ite (.ite (.quiet rfl rfl rfl) (.after (Work.raise_records _ (by decide)) (.quiet rfl rfl rfl))) (.quiet rfl rfl rfl)

theorem Work.compute_records (a b : Sample) (h : Int) (w : Work) : w.Records (w.compute a b h) := by
  unfold Work.compute
  dsimp only
  generalize hw1 : Work.clipTick _ _ = w1
  have hclip : w.Records w1 := hw1 ▸ .after (Work.clipTick_records _ _) (.quiet rfl rfl rfl)
  exact hclip.trans (.quiet rfl rfl rfl)

theorem Work.stall_records (w : Work) : w.Records w.stall :=
  .ite (.quiet rfl rfl rfl) (.after (Work.raise_records _ (by decide)) (.quiet rfl rfl rfl))

theorem Work.tickWord_after_begin (segs : Vector SegRec 256) (h : Int) (w : Work) :
    w.beginTick.1.Records (w.tickWord segs h).1 := by
  unfold Work.tickWord
  split
  case h_5 w1 heq =>
    rw [heq]
    have hc : w1.Records w1.consult := .quiet rfl rfl rfl
    dsimp only
    split
    · exact hc.trans (Work.compute_records _ _ _ _)
    · exact hc.trans (Work.stall_records _)
  all_goals
    rename_i heq
    rw [heq]
    exact .quiet rfl rfl rfl

theorem Work.tickWord_records (segs : Vector SegRec 256) (h : Int) (w : Work) : w.Records (w.tickWord segs h).1 :=
  w.beginTick_records.trans (w.tickWord_after_begin segs h)

theorem Work.tickEnd_records (segs : Vector SegRec 256) (c : ChanId) (r : Rest) (w : Work) :
    w.Records (w.tickEnd segs c r) := by
  cases r with
  | nothing => exact .refl w
  | stop => exact (w.enterIdle_records c).trans (Work.raise_records _ (by decide))
  | starve => exact w.halt_records c .starved
  | moved => exact .ite (w.passEnd_records c _) (.refl w)

theorem Work.startEvent_records (deaf : Bool) (w : Work) : w.Records (w.startEvent deaf) := by
  refine .ite (.refl w) ?_
  split
  · exact .ite (w.raise_records (by decide)) (.quiet rfl rfl rfl)
  · exact .ite (w.raise_records (by decide)) (.quiet rfl rfl rfl)
  all_goals exact .refl w

theorem Work.latchAdvance_records (w : Work) : w.Records w.latchAdvance :=
  .ite (w.raise_records (by decide)) (.quiet rfl rfl rfl)

theorem Work.advanceEvent_records (w : Work) : w.Records w.advanceEvent := by
  unfold Work.advanceEvent
  split
  · exact w.latchAdvance_records
  · exact w.latchAdvance_records
  · exact .ite w.latchAdvance_records (.quiet rfl rfl rfl)
  all_goals exact .refl w

theorem Work.updateEvent_records (w : Work) : w.Records w.updateEvent :=
  .ite (.ite (w.raise_records (by decide)) (.quiet rfl rfl rfl)) (.refl w)

theorem Work.triggerEvent_records (deaf : Bool) (src : Source) (w : Work) : w.Records (w.triggerEvent deaf src) := by
  unfold Work.triggerEvent
  exact .trans (.trans (.ite (w.startEvent_records deaf) (.refl w)) (.ite (Work.advanceEvent_records _) (.refl _)))
    (.ite (Work.updateEvent_records _) (.refl _))

theorem Work.loseClock_records (c : ChanId) (w : Work) : w.Records (w.loseClock c) := by
  unfold Work.loseClock
  split
  · exact w.halt_records c .clockLost
  · exact w.halt_records c .clockLost
  · exact w.halt_records c .clockLost
  · exact .quiet rfl rfl rfl
  · exact .quiet rfl rfl rfl
  · exact .quiet rfl rfl rfl
  · exact .refl w

end Sys2Proof.Machine
end

section
/-! ## What a step is made of

Every command and every period of REFCLK is a chain of deeds: a deed is the least that the laws of channels, events, clock
and arbiter have to be kept by. -/

namespace Sys2Proof.Machine

/-- What a command or an event outside the ticks makes of channel c, with the burst in flight and the causes raised. -/
inductive ChanDeed (s : State) (c : ChanId) : Work → Prop
  /-- A trigger event reaches the channel (R119). -/
  | trigger (deaf : Bool) (src : Source) : ChanDeed s c ((s.work c).triggerEvent deaf src)
  /-- ARM, its checks passed (R61). -/
  | arm (p : Port) (hidle : (s.chan c).state = .idle) (hcheck : s.armFailure p c = none) : ChanDeed s c ((s.work c).arm c)
  /-- DISARM (R63). -/
  | disarm (h : (s.chan c).state = .arming ∨ (s.chan c).state = .armed) : ChanDeed s c ((s.work c).disarm c)
  /-- STOP (R72). -/
  | stop (mode : StopPoint) : ChanDeed s c ((s.work c).stopCommand c mode)
  /-- JUMP, its checks passed (R74). -/
  | jump (target : Byte) (j : EntryIx) (h : (s.chan c).jumpCheck target = .ok j) :
      ChanDeed s c ((s.work c).jumpCommand c j)
  /-- SET-STATIC (R82). -/
  | static (st : StaticParams) (h : (s.chan c).state.active = false) :
      ChanDeed s c { s.work c with ch := (s.chan c).writeStatic st }
  /-- SET-LIVE (R141, R142). -/
  | live (given : PendingRec) (pt : ApplyPoint) (h : given.StepLaw) :
      ChanDeed s c { s.work c with ch := (s.chan c).setLive given pt }
  /-- APPLY-GROUP (R147). -/
  | join : ChanDeed s c { s.work c with ch := (s.chan c).joinGroup }
  /-- START (R65). -/
  | start : ChanDeed s c { s.work c with ch := (s.chan c).startCommand }
  /-- CLEAR-FAULT (R77). -/
  | clearFault (h : (s.chan c).state = .halted) : ChanDeed s c { s.work c with ch := (s.chan c).clearFault }
  /-- SET-MARKER (R129), or the end of a pulse (R131). -/
  | unit (u : MkUnit) (m : Marker) : ChanDeed s c { s.work c with ch := (s.chan c).setUnit u m }
  /-- The end of prefill (R62). -/
  | armed (h : (s.chan c).state = .arming) : ChanDeed s c { s.work c with ch := { s.chan c with state := .armed } }

/-- The part when the clock is judged lost, before the lines that fell are delivered (R80). -/
def State.lost (s : State) : State :=
  (State.raiseBoth { s with monitor := s.monitor.still .lost, ticks := Vector.replicate 8 .noTick } .device .clockLost).loseAll

/-- One deed. `still` says that the segments of the lists stay as they are. -/
inductive Deed (still : Prop) (s : State) : State → Prop
  /-- Something outside the channels, the clock and the ports, that puts no burst to be kept into flight. -/
  | aside {t : State} (hchans : t.chans = s.chans) (hports : t.ports = s.ports) (hmonitor : t.monitor = s.monitor)
      (hticks : t.ticks = s.ticks) (harb : ∀ p, t.arb.passOver.get p ≤ s.arb.passOver.get p)
      (hburst : ∀ b, t.burst = some b → b.keep = true → s.burst = some b)
      (hlength : still → ∀ i, (t.seg i).length = (s.seg i).length) : Deed still s t
  /-- The record of a port changes, and entries may leave its event set. -/
  | port (p : Port) (r : PortRec) (h : r.events.Sublist (s.port p).events) : Deed still s (s.setPort p r)
  /-- A cause reaches one port (R179). -/
  | raise (p : Port) (src : EventSource) (k : Kind) (d : Detail) (h : EventEntry.lawful ⟨src, k, d, false⟩ = true) :
      Deed still s (s.raiseTo p src k d)
  /-- An event of one channel. -/
  | work (c : ChanId) {w : Work} (h : ChanDeed s c w) : Deed still s (s.putWork c w)
  /-- The list of a channel that is not active changes (R64). -/
  | list (c : ChanId) (l : List Entry) (hmoved : ¬ still) (h : (s.chan c).state.active = false) :
      Deed still s (s.setChan c { s.chan c with list := l })
  /-- The clock goes on, and is not judged lost (R78, R79, R81). -/
  | clock (m : Monitor) (k : Vector TickStatus 8) (hedge : s.monitor.sinceEdge ≤ 250 → m.sinceEdge ≤ 250)
      (hrun : s.monitor.runLength < 50000 → m.runLength < 50000)
      (hlost : m.clock = .lost → s.monitor.clock = .lost ∧ ∀ c, k.get c = s.tickOf c ∨ k.get c = .noTick) :
      Deed still s { s with monitor := m, ticks := k }
  /-- The clock is judged lost (R80). -/
  | lose : Deed still s s.lost
  /-- A due tick is taken (R58). -/
  | tick (c : ChanId) (h : s.tickOf c = .due) : Deed still s (s.tickOne c)
  /-- A grant decision (R115). -/
  | grant : Deed still s s.arbitrate
  /-- The items of a Fetcher's burst are taken (R105). -/
  | fetched (c : ChanId) (b : Burst) (hb : s.burst = some b) (hreq : b.requester = .fetcher c) :
      Deed still s (s.fetchTaken c b)
  /-- A device reset (R57). -/
  | reset {t : State} (hmoved : ¬ still) (h : execDeviceReset s = .next t) : Deed still s t

/-- A chain of deeds. -/
def Deeds (still : Prop) : State → State → Prop := Relation.ReflTransGen (Deed still)

namespace Deeds

variable {q : Prop} {s t u : State}

theorem refl (s : State) : Deeds q s s := Relation.ReflTransGen.refl

theorem trans (h : Deeds q s u) (k : Deeds q u t) : Deeds q s t := Relation.ReflTransGen.trans h k

/-- The same, for a deed whose end is known before its middle. -/
theorem after (k : Deeds q u t) (h : Deeds q s u) : Deeds q s t := h.trans k

theorem of (h : Deed q s t) : Deeds q s t := Relation.ReflTransGen.single h

theorem ite {p : Prop} [Decidable p] (h : Deeds q s t) (k : Deeds q s u) : Deeds q s (if p then t else u) := by
  split
  · exact h
  · exact k

theorem foldl {α : Type} {f : State → α → State} (h : ∀ s x, Deeds q s (f s x)) (l : List α) (s : State) :
    Deeds q s (l.foldl f s) := by
  induction l generalizing s with
  | nil => exact refl s
  | cons x r ih => exact (h s x).trans (ih _)

/-- What changes only fields of which no law speaks. -/
theorem of_rest (hchans : t.chans = s.chans) (hports : t.ports = s.ports) (hmonitor : t.monitor = s.monitor)
    (hticks : t.ticks = s.ticks) (harb : t.arb = s.arb) (hburst : t.burst = s.burst) (hsegs : t.segs = s.segs) :
    Deeds q s t := by
  refine of (.aside hchans hports hmonitor hticks (fun p => by rw [harb]) (fun b hb _ => hburst ▸ hb) fun _ i => ?_)
  unfold State.seg
  rw [hsegs]

theorem setPort (s : State) (p : Port) (r : PortRec) (h : r.events = (s.port p).events) : Deeds q s (s.setPort p r) :=
  of (.port p r (h ▸ .refl _))

theorem answered (h : Deeds q s u) (p : Port) (e : Byte) (st : Status) (pl : List Byte) :
    Deeds q s (u.respond p e st pl) := h.trans (setPort u p _ rfl)

theorem setLoad (s : State) (p : Port) (u : LoadUnit) : Deeds q s (s.setLoad p u) := of_rest rfl rfl rfl rfl rfl rfl rfl

theorem onPort {p : Port} {n : Nat} {act : State → State} (h : ∀ u, Deeds q u (act u)) :
    Deeds q s (Sys2Proof.Machine.onPort p n s act) := by
  have hclock : Deeds q s (s.clockOut p n) := setPort s p _ rfl
  refine ite (refl s) ?_
  dsimp only
  split
  · exact hclock.trans (setPort _ p _ rfl)
  · exact hclock.trans ((h _).after (setPort _ p _ rfl))
  · exact hclock.trans (h _)

theorem raiseTo (s : State) (p : Port) (src : EventSource) (k : Kind) (d : Detail)
    (h : EventEntry.lawful ⟨src, k, d, false⟩ = true) : Deeds q s (s.raiseTo p src k d) := of (.raise p src k d h)

theorem raiseBoth (s : State) (src : EventSource) (k : Kind)
    (h : EventEntry.lawful ⟨src, k, .nothing, false⟩ = true) : Deeds q s (s.raiseBoth src k) :=
  (raiseTo s .a src k .nothing h).trans (raiseTo _ .b src k .nothing h)

theorem work (s : State) (c : ChanId) {w : Work} (h : ChanDeed s c w) : Deeds q s (s.putWork c w) := of (.work c h)

/-- A channel replaced, with no cause raised. -/
theorem setChan (s : State) (c : ChanId) {k : Chan} (h : ChanDeed s c { s.work c with ch := k }) :
    Deeds q s (s.setChan c k) := work s c h

end Deeds

end Sys2Proof.Machine
end

section
/-! ## Every step is a chain of deeds -/

namespace Sys2Proof.Machine

section
variable {q : Prop}

/-! ### Triggers, lines and ticks -/

theorem triggerBy_deeds (s : State) (own : Option ChanId) (src : Source) : Deeds q s (s.triggerBy own src) :=
  .foldl (fun t c => .work t c (.trigger _ _)) _ s

theorem trigger_deeds (s : State) (src : Source) : Deeds q s (s.trigger src) := triggerBy_deeds s none src

theorem reach_deeds (s : State) (e : SyncEvent) : Deeds q s (s.reach e) := triggerBy_deeds s _ _

theorem syncEvents_deeds (s : State) (l : List SyncEvent) : Deeds q s { s with syncEvents := l } :=
  .of_rest rfl rfl rfl rfl rfl rfl rfl

theorem deliverLines_deeds (s t : State) : Deeds q t (s.deliverLines t) :=
  .foldl (fun u l => trigger_deeds u (.syn l)) _ t

theorem deliverEvent_deeds (s : State) (e : SyncEvent) : Deeds q s (s.deliverEvent e) :=
  (syncEvents_deeds s _).trans (reach_deeds _ e)

theorem deliverAll_deeds (s : State) : Deeds q s s.deliverAll :=
  (syncEvents_deeds s []).trans (.foldl reach_deeds _ _)

theorem judgePin_deeds (s : State) (n : Fin 4) (level : Bool) : Deeds q s (s.judgePin n level) := by
  have h : Deeds q s { s with judged := s.judged.set n level } := .of_rest rfl rfl rfl rfl rfl rfl rfl
  exact .ite (.refl s) (.ite (h.trans (trigger_deeds _ _)) h)

theorem tickOne_deeds {s : State} {c : ChanId} (h : s.tickOf c = .due) : Deeds q s (s.tickOne c) := .of (.tick c h)

theorem finishTicks_deeds (s : State) : Deeds q s s.finishTicks := by
  refine .foldl (fun t c => ?_) _ s
  split
  · rename_i h
    exact tickOne_deeds (of_decide_eq_true h)
  · exact .refl t

theorem finishEdge_deeds (s : State) : Deeds q s s.finishEdge := (finishTicks_deeds s).trans (deliverAll_deeds _)

/-- Ticks that are due are taken one after another (R79). -/
theorem foldl_tickOne_deeds (l : List ChanId) (hl : l.Nodup) {s : State} (h : ∀ d ∈ l, s.tickOf d = .due) :
    Deeds q s (l.foldl State.tickOne s) := by
  induction l generalizing s with
  | nil => exact .refl s
  | cons c r ih =>
    obtain ⟨hc, hr⟩ := List.nodup_cons.1 hl
    refine (tickOne_deeds (h c List.mem_cons_self)).trans (ih hr fun d hd => ?_)
    rw [State.tickOne_tickOf_ne _ (ne_of_mem_of_not_mem hd hc)]
    exact h d (List.mem_cons_of_mem _ hd)

theorem tickChannel_deeds {s : State} {c : ChanId} (h : s.tickOf c = .due) : Deeds q s (s.tickChannel c) := by
  refine foldl_tickOne_deeds (c :: s.coincident c) (List.nodup_cons.2 ⟨fun hc => ?_, ?_⟩) fun d hd => ?_
  · exact ((s.mem_coincident c c).1 hc).1 rfl
  · exact (List.nodup_finRange 8).filter _
  · rcases List.mem_cons.1 hd with rfl | hd
    · exact h
    · exact ((s.mem_coincident c d).1 hd).2.1

/-! ### The clock -/

theorem clockIsLost_deeds (s : State) : Deeds q s s.clockIsLost :=
  ((finishEdge_deeds s).trans (.of .lose)).trans (deliverLines_deeds _ _)

theorem clockIsBack_deeds (s : State) : Deeds q s s.clockIsBack := by
  refine .trans (.of (.clock s.monitor.restored (Vector.replicate 8 .noTick) (fun h => ?_)
    (fun _ => (by decide : 0 < 50000)) nofun))
    (.raiseBoth _ _ _ rfl)
  dsimp only [Monitor.restored]
  split
  · exact h
  · exact Nat.zero_le _

/-- The monitor measures on, and stays in its clock state. -/
theorem monitor_deeds (s : State) (m : Monitor) (hclock : m.clock = s.monitor.clock) (hedge : m.sinceEdge ≤ 250)
    (hrun : s.monitor.runLength < 50000 → m.runLength < 50000) : Deeds q s { s with monitor := m } :=
  .of (.clock m s.ticks (fun _ => hedge) hrun fun h => ⟨hclock ▸ h, fun _ => .inl rfl⟩)

theorem still_deeds {s : State} (h : s.monitor.clock = .lost) :
    Deeds q s { s with monitor := s.monitor.still .lost } :=
  monitor_deeds s _ h.symm le_rfl fun _ => (by decide : 0 < 50000)

theorem refclkPeriod_deeds (s : State) : Deeds q s s.refclkPeriod := by
  unfold State.refclkPeriod
  dsimp only
  split
  · split
    · exact clockIsLost_deeds s
    · exact still_deeds ‹_›
  · rename_i hedge
    have hmeasured : ∀ n, (s.monitor.runLength < 50000 → n < 50000) →
        Deeds q s { s with monitor := { s.monitor with sinceEdge := s.monitor.sinceEdge + 1, runLength := n } } :=
      fun n => monitor_deeds s { s.monitor with sinceEdge := s.monitor.sinceEdge + 1, runLength := n } rfl
        (not_le.1 hedge).le
    split
    · exact hmeasured s.monitor.runLength id
    · refine .ite ?_ (hmeasured s.monitor.runLength id)
      split
      · exact (hmeasured s.monitor.runLength id).trans (clockIsBack_deeds _)
      · exact hmeasured _ fun _ => by omega

/-! ### Segments that keep their length, pages and readbacks -/

theorem setSeg_deeds (s : State) (i : SegId) (r : SegRec) (h : q → r.length = (s.seg i).length) :
    Deeds q s (s.setSeg i r) := by
  refine .of (.aside rfl rfl rfl rfl (fun _ => le_rfl) (fun _ hb _ => hb) fun hq j => ?_)
  rw [State.setSeg_seg]
  split
  case isTrue e => rw [e, h hq]
  case isFalse => rfl

theorem endRead_deeds (s : State) (b : Burst) : Deeds q s (s.endRead b) := by
  obtain ⟨_, _, _, e⟩ := s.endRead_eq b
  rw [e]
  exact .of (.aside rfl rfl rfl rfl (fun _ => le_rfl) nofun fun _ _ => rfl)

theorem answerCancelled_deeds (s : State) (p : Port) : Deeds q s (s.answerCancelled p) := by
  unfold State.answerCancelled
  dsimp only
  split
  · exact .ite ((Deeds.setLoad s p _).answered _ _ _ _) (.refl s)
  · exact .refl s

theorem settleCancelled_deeds (s : State) : Deeds q s s.settleCancelled :=
  (answerCancelled_deeds s .a).trans (answerCancelled_deeds _ .b)

theorem takeRead_deeds (s : State) (p : Port) (slots : List Slot) : Deeds q s (s.takeRead p slots) := by
  unfold State.takeRead
  dsimp only
  split
  · exact .refl s
  · exact .ite ((Deeds.setLoad s p _).answered _ _ _ _) (.setLoad s p _)

theorem dropRead_deeds (s : State) (p : Port) : Deeds q s (s.dropRead p) := by
  unfold State.dropRead
  dsimp only
  split
  · exact .ite ((Deeds.setLoad s p _).trans (answerCancelled_deeds _ p)) (.refl s)
  · exact .refl s

theorem readDone_deeds (s : State) (p : Port) (b : Burst) : Deeds q s (s.readDone p b) := by
  refine .trans ?_ (.of .grant)
  exact (endRead_deeds s b).trans (.ite (takeRead_deeds _ p _) (dropRead_deeds _ p))

theorem endPrefill_deeds (s : State) (c : ChanId) : Deeds q s (s.endPrefill c) := by
  unfold State.endPrefill
  split
  case isTrue h => exact (Deeds.setChan s c (.armed h.1)).trans (.raiseBoth _ _ _ rfl)
  case isFalse => exact .refl s

theorem fetchDone_deeds {s : State} {c : ChanId} {b : Burst} (hb : s.burst = some b) (hreq : b.requester = .fetcher c) :
    Deeds q s (s.fetchDone c b) :=
  ((Deeds.of (.fetched c b hb hreq)).trans (endPrefill_deeds _ c)).trans (.of .grant)

/-! ### Claims, edge modes and drivers -/

theorem claimOne_deeds (p : Port) (y k : Bool) (s : State) (c : ChanId) : Deeds q s (s.claimOne p y k c) := by
  have h : Deeds q s (s.setClaim c ⟨some p, y⟩) := .of_rest rfl rfl rfl rfl rfl rfl rfl
  unfold State.claimOne
  split
  · exact .refl s
  · exact h.trans (.raiseTo _ _ _ _ _ rfl)
  · exact h
  · exact h

theorem releaseOne_deeds (p : Port) (s : State) (c : ChanId) : Deeds q s (s.releaseOne p c) :=
  .ite (.of_rest rfl rfl rfl rfl rfl rfl rfl) (.refl s)

theorem writeEdgeMode_deeds (s : State) (p : Port) (n : Fin 8) (m : EdgeMode) :
    Deeds q s (s.writeEdgeMode p n m) := by
  have h : Deeds q s { s with modes := s.modes.set n m } := .of_rest rfl rfl rfl rfl rfl rfl rfl
  exact .ite h (h.trans (.raiseTo _ _ _ _ _ rfl))

theorem drive_deeds (s : State) (l : Fin 4) (d : Option (ChanId × MkUnit)) : Deeds q s (s.drive l d) :=
  .after (deliverLines_deeds _ _) (.of_rest rfl rfl rfl rfl rfl rfl rfl)

theorem discardFrame_deeds (s : State) (p : Port) (n : Nat) : Deeds q s (s.discardFrame p n) :=
  .ite (.onPort fun u => .refl u) (.refl s)

end

/-! ### Segments and loads that move -/

/-- A burst dropped is not one to be kept. -/
theorem dropReadBurst_deeds (s : State) (p : Port) : Deeds False s (s.dropReadBurst p) := by
  rw [s.dropReadBurst_eq p]
  exact .of (.aside rfl rfl rfl rfl (fun _ => le_rfl) (fun _ => discard_kept) nofun)

theorem passOver_le (x : PerPort Nat) (p r : Port) : (x.set p 0).get r ≤ x.get r := by
  rw [PerPort.get_set]
  split
  · exact Nat.zero_le _
  · exact le_rfl

theorem setPassOver_deeds (s : State) (p : Port) : Deeds False s (s.setPassOver p 0) :=
  .of (.aside rfl rfl rfl rfl (passOver_le _ p) (fun _ hb _ => hb) nofun)

theorem cancelReadback_deeds (s : State) (i : SegId) (p : Port) : Deeds False s (s.cancelReadback i p) := by
  rw [s.cancelReadback_spec i p]
  refine .of (.aside rfl rfl rfl rfl (fun r => ?_) (fun b hb hkeep => ?_) nofun)
  · dsimp only
    split
    · exact passOver_le _ p r
    · exact le_rfl
  · dsimp only at hb
    split at hb
    · exact discard_kept hb hkeep
    · exact hb

theorem givePages_deeds (s : State) (l : List PageNo) : Deeds False s (s.givePages l) := by
  obtain ⟨_, _, _, e⟩ := s.givePages_eq l
  rw [e]
  exact .of_rest rfl rfl rfl rfl rfl rfl rfl

theorem freeSegment_deeds (s : State) (i : SegId) : Deeds False s (s.freeSegment i) := by
  refine .trans ?_ (cancelReadback_deeds _ i .b)
  refine .trans ?_ (cancelReadback_deeds _ i .a)
  exact (givePages_deeds s _).trans (setSeg_deeds _ i _ nofun)

theorem releaseSegment_deeds (s : State) (i : SegId) : Deeds False s (s.releaseSegment i) := by
  refine .ite (.after (freeSegment_deeds _ i) ?_) (setSeg_deeds s i _ nofun)
  unfold State.raiseFreed
  split
  · exact .raiseTo _ _ _ _ _ rfl
  · exact .refl s

theorem releaseAll_deeds (s : State) (l : List Entry) : Deeds False s (s.releaseAll l).1 := by
  induction l generalizing s with
  | nil => exact .refl s
  | cons e r ih => exact (releaseSegment_deeds s e.seg).trans (ih _)

theorem endLoad_deeds (s : State) (p : Port) : Deeds False s (s.endLoad p) := by
  refine .trans ?_ (.setLoad _ p _)
  split
  · exact freeSegment_deeds s _
  · exact .refl s

theorem abortOpen_deeds (s : State) (p : Port) : Deeds False s (s.abortOpen p) := by
  have h : Deeds False s (if s.drainRequest p then s.setPassOver p 0 else s) := .ite (setPassOver_deeds s p) (.refl s)
  unfold State.abortOpen
  dsimp only
  split
  · exact h.trans (endLoad_deeds _ p)
  · exact h.trans (.setLoad _ p _)

theorem resetLoad_deeds (s : State) (p : Port) : Deeds False s (s.resetLoad p) := by
  have h : Deeds False s
      ((s.dropReadBurst p).setLoad p { (s.dropReadBurst p).loadUnit p with readback := none }) :=
    (dropReadBurst_deeds s p).trans (.setLoad _ p _)
  exact .ite (h.trans (abortOpen_deeds _ p)) h

theorem resetOnePort_deeds (s : State) (p : Port) : Deeds False s (s.resetOnePort p) := by
  refine .trans ?_ (.of (.port p _ (List.nil_sublist _)))
  refine .trans ?_ (setPassOver_deeds _ p)
  exact .after (resetLoad_deeds _ p) (.of_rest rfl rfl rfl rfl rfl rfl rfl)

theorem drainDone_deeds (s : State) (p : Port) (b : Burst) : Deeds False s (s.drainDone p b) := by
  have h : ∀ m ls, Deeds False s { s with burst := none, mem := m, loads := ls } := fun _ _ =>
    .of (.aside rfl rfl rfl rfl (fun _ => le_rfl) nofun nofun)
  exact .trans (.ite ((h _ _).trans (endLoad_deeds _ p)) (h _ _)) (.of .grant)

theorem openOn_deeds (s : State) (p : Port) (i : SegId) (n : Nat) (v : Visibility) (label : Option Half) :
    Deeds False s (s.openOn p i n v label) := by
  obtain ⟨_, e⟩ := s.takePages_eq (pagesFor n)
  unfold State.openOn
  dsimp only
  rw [e]
  exact .of (.aside rfl rfl rfl rfl (fun _ => le_rfl) (fun _ hb _ => hb) nofun)

theorem closeOn_deeds (s : State) (p : Port) (i : SegId) : Deeds False s (s.closeOn p i).1 := by
  unfold State.closeOn
  dsimp only
  split_ifs
  · exact (setSeg_deeds s i _ nofun).trans (.setLoad _ p _)
  · exact (freeSegment_deeds s i).trans (.setLoad _ p _)
  · exact (setSeg_deeds s i _ nofun).trans ((givePages_deeds _ _).trans (.setLoad _ p _))

theorem deleteOn_deeds {s t : State} {p : Port} {i : SegId} (h : s.deleteOn p i = .ok t) : Deeds False s t := by
  unfold State.deleteOn at h
  dsimp only at h
  split at h
  · cases h
  · split at h <;> cases h
  · split at h <;> cases h
    exact .refl s
  · split at h
    · split at h <;> cases h
      · exact freeSegment_deeds s i
      · exact setSeg_deeds s i _ nofun
    · cases h

theorem putOn_deeds {s : State} {p : Port} {c : ChanId} {n : Nat} {a : EntryArg} {e : Entry}
    (h : s.putCheck p c n a = .ok e) : Deeds False s (s.putOn c n e) := by
  have hput : ∀ l, Deeds False s ((s.setChan c { s.chan c with list := l }).bindSegment e.seg) := fun l =>
    (Deeds.of (.list c l id (putCheck_inactive h))).trans (setSeg_deeds _ _ _ nofun)
  unfold State.putOn
  dsimp only
  split
  · exact hput _
  · exact (hput _).trans (releaseSegment_deeds _ _)

theorem trimOn_deeds {s : State} {c : ChanId} {m : Nat} (h : s.trimCheck c m = none) :
    Deeds False s (s.trimOn c m).1 :=
  (Deeds.of (.list c _ id (trimCheck_inactive h))).trans (releaseAll_deeds _ _)

end Sys2Proof.Machine
end

section
/-! ### Every command -/

namespace Sys2Proof.Machine

/-- A command that does nothing before its response. -/
theorem respond_deeds {q : Prop} (s : State) (p : Port) (e : Byte) (st : Status) (pl : List Byte) :
    Deeds q s (s.respond p e st pl) := .setPort s p _ rfl

theorem Deeds.of_moving {q : Prop} {s t : State} (h : Deeds False s t) (hq : ¬ q) : Deeds q s t := by
  rwa [eq_false hq]

/-- The status of a segment's visibility is no part of its length. -/
theorem visibility_deeds {q : Prop} (s : State) (i : SegId) (v : Option Visibility) :
    Deeds q s (s.setSeg i { s.seg i with vis := v }) := setSeg_deeds s i _ fun _ => rfl

/-- The commands on segments and lists, and the reset of a port. -/
theorem exec_segment_deeds {i : Instr} {p : Port} {s t : State} (hi : framePort i = some p) (hr : recounts i = true)
    (h : exec i s = .next t) : Deeds False s t := by
  cases i
  case openLoad p seg declared vis label =>
    cases h
    refine .onPort fun u => ?_
    split
    · exact respond_deeds u _ _ _ _
    · exact (openOn_deeds u _ _ _ _ _).answered _ _ _ _
  case closeLoad p =>
    cases h
    refine .onPort fun u => ?_
    dsimp only
    split
    · exact respond_deeds u _ _ _ _
    · exact .ite (respond_deeds u _ _ _ _) (.ite (respond_deeds u _ _ _ _) ((closeOn_deeds u p _).answered _ _ _ _))
  case abortLoad p =>
    cases h
    refine .onPort fun u => ?_
    split
    · exact respond_deeds u _ _ _ _
    · exact respond_deeds u _ _ _ _
    · exact (abortOpen_deeds u p).answered _ _ _ _
  case deleteSegment p seg =>
    cases h
    refine .onPort fun u => ?_
    split
    · exact respond_deeds u _ _ _ _
    · rename_i hdelete
      exact ((deleteOn_deeds hdelete).answered _ _ _ _).trans (settleCancelled_deeds _)
  case putEntry p ch index entry =>
    cases h
    refine .onPort fun u => ?_
    split
    · exact respond_deeds u _ _ _ _
    · split
      · exact respond_deeds u _ _ _ _
      · rename_i hcheck
        exact ((putOn_deeds hcheck).answered _ _ _ _).trans (settleCancelled_deeds _)
  case trimList p ch newLength =>
    cases h
    refine .onPort fun u => ?_
    split
    · exact respond_deeds u _ _ _ _
    · split
      · exact respond_deeds u _ _ _ _
      · rename_i hcheck
        exact ((trimOn_deeds hcheck).answered _ _ _ _).trans (settleCancelled_deeds _)
  case resetPort p =>
    cases h
    exact .onPort fun u => (resetOnePort_deeds u p).answered _ _ _ _
  all_goals contradiction

/-- The commands on channels. -/
theorem execArm_deeds {q : Prop} (p : Port) (ch : Byte) {s t : State} (h : execArm p ch s = .next t) :
    Deeds q s t := by
  cases h
  refine .onPort fun u => ?_
  split
  · exact respond_deeds u _ _ _ _
  · split
    · exact respond_deeds u _ _ _ _
    · rename_i c _ hidle
      refine .ite (respond_deeds u _ _ _ _) ?_
      split
      · exact respond_deeds u _ _ _ _
      · rename_i hcheck
        exact ((Deeds.work u c (.arm p (not_not.1 hidle) hcheck)).answered _ _ _ _).trans (.of .grant)

theorem execDisarm_deeds {q : Prop} (p : Port) (ch : Byte) {s t : State} (h : execDisarm p ch s = .next t) :
    Deeds q s t := by
  cases h
  refine .onPort fun u => ?_
  split
  · exact respond_deeds u _ _ _ _
  · split
    case h_1 hs => exact (Deeds.work u _ (.disarm (.inl hs))).answered _ _ _ _
    case h_2 hs => exact (Deeds.work u _ (.disarm (.inr hs))).answered _ _ _ _
    all_goals exact respond_deeds u _ _ _ _

theorem staticCheck_inactive {s : State} {c : ChanId} {a : StaticArgs} {r : StaticParams × Bool}
    (h : s.staticCheck c a = .ok r) : (s.chan c).state.active = false := by
  unfold State.staticCheck at h
  split at h
  · cases h
  · exact eq_false_of_ne_true ‹_›

theorem execSetStatic_deeds {q : Prop} (p : Port) (ch : Byte) (args : StaticArgs) {s t : State}
    (h : execSetStatic p ch args s = .next t) : Deeds q s t := by
  cases h
  refine .onPort fun u => ?_
  split
  · exact respond_deeds u _ _ _ _
  · split
    · exact respond_deeds u _ _ _ _
    · rename_i hcheck
      exact (Deeds.setChan u _ (.static _ (staticCheck_inactive hcheck))).answered _ _ _ _

theorem execSetLive_deeds {q : Prop} (p : Port) (ch : Byte) (point : Option Byte) (args : LiveArgs) {s t : State}
    (h : execSetLive p ch point args s = .next t) : Deeds q s t := by
  cases h
  refine .onPort fun u => ?_
  split
  · exact respond_deeds u _ _ _ _
  · split
    · exact respond_deeds u _ _ _ _
    · exact (Deeds.setChan u _ (.live _ _ (liveRecord_stepLaw args))).answered _ _ _ _

theorem execJump_deeds {q : Prop} (p : Port) (ch target : Byte) {s t : State} (h : execJump p ch target s = .next t) :
    Deeds q s t := by
  cases h
  refine .onPort fun u => ?_
  split
  · exact respond_deeds u _ _ _ _
  · split
    · exact respond_deeds u _ _ _ _
    · rename_i hcheck
      exact ((Deeds.work u _ (.jump target _ hcheck)).answered _ _ _ _).trans (.of .grant)

theorem execClearFault_deeds {q : Prop} (p : Port) (ch : Byte) {s t : State} (h : execClearFault p ch s = .next t) :
    Deeds q s t := by
  cases h
  refine .onPort fun u => ?_
  split
  · exact respond_deeds u _ _ _ _
  · split
    · rename_i hhalted
      exact (Deeds.setChan u _ (.clearFault hhalted)).answered _ _ _ _
    · exact respond_deeds u _ _ _ _

/-- The commands that leave segments and lists alone. -/
theorem exec_frame_deeds {i : Instr} {p : Port} {s t : State} (hi : framePort i = some p) (hr : recounts i = false)
    (h : exec i s = .next t) : Deeds True s t := by
  cases i
  case arm p ch => exact execArm_deeds p ch h
  case disarm p ch => exact execDisarm_deeds p ch h
  case setStatic p ch args => exact execSetStatic_deeds p ch args h
  case setLive p ch point args => exact execSetLive_deeds p ch point args h
  case jump p ch target => exact execJump_deeds p ch target h
  case clearFault p ch => exact execClearFault_deeds p ch h
  case stop p mask mode =>
    cases h
    refine .onPort fun u => ?_
    split
    · exact respond_deeds u _ _ _ _
    · exact .ite (respond_deeds u _ _ _ _) (.ite (respond_deeds u _ _ _ _)
        ((Deeds.foldl (fun v c => .work v c (.stop _)) _ u).answered _ _ _ _))
  case applyGroup p mask =>
    cases h
    exact .onPort fun u => .ite (respond_deeds u _ _ _ _) (.ite (respond_deeds u _ _ _ _)
      ((Deeds.foldl (fun v c => .setChan v c .join) _ u).answered _ _ _ _))
  case start p mask =>
    cases h
    exact .onPort fun u => .ite (respond_deeds u _ _ _ _) (.ite (respond_deeds u _ _ _ _)
      (.ite (respond_deeds u _ _ _ _) ((Deeds.foldl (fun v c => .setChan v c .start) _ u).answered _ _ _ _)))
  case setMarker p ch unit args =>
    cases h
    refine .onPort fun u => ?_
    split
    · exact respond_deeds u _ _ _ _
    · exact (Deeds.setChan u _ (.unit _ _)).answered _ _ _ _
  case setSyncDriver p line driver =>
    cases h
    refine .onPort fun u => ?_
    split
    · exact respond_deeds u _ _ _ _
    · split
      · exact respond_deeds u _ _ _ _
      · split
        · exact respond_deeds u _ _ _ _
        · exact .ite ((drive_deeds u _ _).answered _ _ _ _) (respond_deeds u _ _ _ _)
  case identify p | queryStore p | querySegment p seg =>
    cases h
    exact .onPort fun u => respond_deeds u _ _ _ _
  case setEventEnable p kinds =>
    cases h
    exact .onPort fun u => (Deeds.setPort u p _ (by rfl)).answered _ _ _ _
  case takeEvents p =>
    cases h
    exact .onPort fun u => (Deeds.of (.port p _ (List.drop_sublist 32 _))).answered _ _ _ _
  case loadData p samples =>
    cases h
    exact .onPort fun u => ((Deeds.setLoad u _ _).answered _ _ _ _).trans (.of .grant)
  case setVisibility p seg vis =>
    cases h
    refine .onPort fun u => ?_
    split
    · exact respond_deeds u _ _ _ _
    · exact (visibility_deeds u _ _).answered _ _ _ _
  case readSegment p seg offset count =>
    cases h
    refine .onPort fun u => ?_
    split
    · exact respond_deeds u _ _ _ _
    · exact .trans ((Deeds.setLoad u _ _).trans (.setPort _ _ _ (by rfl))) (.of .grant)
  case queryEntry p ch index =>
    cases h
    refine .onPort fun u => ?_
    split
    · exact respond_deeds u _ _ _ _
    · split <;> exact respond_deeds u _ _ _ _
  case queryList p ch | queryChannel p ch =>
    cases h
    refine .onPort fun u => ?_
    split <;> exact respond_deeds u _ _ _ _
  case claim p mask yieldable take =>
    cases h
    exact .onPort fun u => .ite (respond_deeds u _ _ _ _)
      ((Deeds.foldl (claimOne_deeds p yieldable take) _ u).answered _ _ _ _)
  case release p mask =>
    cases h
    exact .onPort fun u => .ite (respond_deeds u _ _ _ _) ((Deeds.foldl (releaseOne_deeds p) _ u).answered _ _ _ _)
  case setSourceEdge p source mode =>
    cases h
    refine .onPort fun u => ?_
    split
    · exact respond_deeds u _ _ _ _
    · exact (writeEdgeMode_deeds u _ _ _).answered _ _ _ _
    · exact respond_deeds u _ _ _ _
  case fire p =>
    cases h
    exact .onPort fun u => (trigger_deeds u _).answered _ _ _ _
  all_goals contradiction

/-! ### Every event -/

theorem execSclkRisingEdge_deeds {q : Prop} (s : State) : ∃ t, execSclkRisingEdge s = .next t ∧ Deeds q s t := by
  refine ⟨_, rfl, (finishEdge_deeds s).trans ?_⟩
  generalize s.finishEdge = u
  dsimp only
  split
  · rename_i hclock
    exact .of (.clock _ _ (fun _ => Nat.zero_le 250) (fun hrun => hrun) fun hlost => by cases hclock.symm.trans hlost)
  · rename_i hclock
    exact .of (.clock _ _ (fun _ => Nat.zero_le 250) (fun hrun => hrun)
      fun _ => ⟨hclock, fun c => .inr (get_replicate _ c)⟩)

theorem execFetchBurstComplete_deeds {q : Prop} (us : List Upset) {s t : State}
    (h : execFetchBurstComplete us s = .next t) : Deeds q s t := by
  cases h
  split
  · rename_i b hb
    split
    · rename_i c hreq
      have hdisturb : Deeds q s (s.disturb us) := .of_rest rfl rfl rfl rfl rfl rfl rfl
      exact hdisturb.trans (fetchDone_deeds hb hreq)
    · exact .refl s
  · exact .refl s

theorem execReadbackBurstComplete_deeds {q : Prop} (us : List Upset) {s t : State}
    (h : execReadbackBurstComplete us s = .next t) : Deeds q s t := by
  cases h
  split
  · split
    · have hdisturb : Deeds q s (s.disturb us) := .of_rest rfl rfl rfl rfl rfl rfl rfl
      exact hdisturb.trans (readDone_deeds _ _ _)
    · exact .refl s
  · exact .refl s

theorem execReadTransaction_deeds {q : Prop} (p : Port) (n : Nat) {s t : State}
    (h : execReadTransaction p n s = .next t) : Deeds q s t := by
  cases h
  refine .ite (.refl s) ?_
  split
  · exact .ite (.setPort s p _ rfl) (.setPort s p _ rfl)
  · exact .setPort s p _ rfl

/-- The events that are no frame taken; the end of a write burst and the resets move segments. -/
theorem exec_event_deeds {i : Instr} {s t : State} (hi : framePort i = none) (h : exec i s = .next t) :
    Deeds (recounts i = false) s t := by
  cases i
  case drainBurstComplete =>
    cases h
    refine .of_moving ?_ nofun
    split
    · split
      · exact drainDone_deeds s _ _
      · exact .refl s
    · exact .refl s
  case deviceReset => exact .of (.reset nofun h)
  case portReset p =>
    cases h
    exact .of_moving ((resetOnePort_deeds s p).trans (.setPort _ p _ rfl)) nofun
  case badFrame p bytes =>
    cases h
    refine .ite (.refl s) ?_
    split
    · exact .onPort fun u => respond_deeds u _ _ _ _
    · exact discardFrame_deeds s p _
  case overrun p =>
    cases h
    exact discardFrame_deeds s p 1
  case readTransaction p clocked => exact execReadTransaction_deeds p clocked h
  case resetRelease levels =>
    cases h
    exact .ite (.of_rest rfl rfl rfl rfl rfl rfl rfl) (.refl s)
  case prstRelease p =>
    cases h
    exact .setPort s p _ rfl
  case clockLost =>
    cases h
    split
    · exact clockIsLost_deeds s
    · exact .refl s
  case runLengthReset =>
    cases h
    split
    · exact still_deeds ‹_›
    · exact .refl s
  case clockRestored =>
    cases h
    split
    · exact clockIsBack_deeds s
    · exact .refl s
  case outputTick c =>
    cases h
    split
    · rename_i hdue
      exact tickChannel_deeds (of_decide_eq_true hdue)
    · exact .refl s
  case starved c =>
    cases h
    split
    · rename_i hdue
      exact tickChannel_deeds (of_decide_eq_true (Bool.and_eq_true_iff.1 hdue).1)
    · exact .refl s
  case markerPulseEnd c u =>
    cases h
    exact .ite ((Deeds.setChan s c (.unit u _)).trans (syncEvents_deeds _ _)) (.refl s)
  case trgEdge pin level =>
    cases h
    exact .ite (judgePin_deeds s pin level) (.refl s)
  case judgedLevelChange pin level =>
    cases h
    exact .ite (.refl s) (judgePin_deeds s pin level)
  case syncLineEdge line =>
    cases h
    split
    · exact (finishTicks_deeds s).trans (deliverEvent_deeds _ _)
    · exact .refl s
  case fetchBurstComplete us => exact execFetchBurstComplete_deeds us h
  case readbackBurstComplete us => exact execReadbackBurstComplete_deeds us h
  case sclkRisingEdge =>
    obtain ⟨u, hu, hdeeds⟩ := execSclkRisingEdge_deeds (q := recounts .sclkRisingEdge = false) s
    obtain rfl := Host.Outcome.next.inj (hu.symm.trans h)
    exact hdeeds
  all_goals cases hi

/-- Every command is a chain of deeds; those that recount segments may move them. -/
theorem exec_deeds {i : Instr} {s t : State} (h : exec i s = .next t) : Deeds (recounts i = false) s t := by
  cases hi : framePort i with
  | none => exact exec_event_deeds hi h
  | some p =>
    cases hr : recounts i with
    | true => exact (exec_segment_deeds hi hr h).of_moving nofun
    | false =>
      rw [eq_self_iff_true]
      exact exec_frame_deeds hi hr h

/-- Every step is a chain of deeds. -/
theorem step_deeds {s t : State} (h : step s = .next t) :
    (s.pending = [] ∧ Deeds True s t)
      ∨ ∃ i q, s.pending = i :: q ∧ exec i { s with pending := q } = .next t ∧ Deeds (recounts i = false) s t := by
  cases hp : s.pending with
  | nil =>
    cases (step_nil s hp).symm.trans h
    exact .inl ⟨rfl, refclkPeriod_deeds s⟩
  | cons i q =>
    have hi := (step_cons s i q hp).symm.trans h
    have hq : Deeds (recounts i = false) s { s with pending := q } := .of_rest rfl rfl rfl rfl rfl rfl rfl
    exact .inr ⟨i, q, rfl, hi, hq.trans (exec_deeds hi)⟩

end Sys2Proof.Machine
end

section
/-! ## Event sets, clock and pass-over counts (R78, R80, R114, R178) -/

namespace Sys2Proof.Machine

/-! ### Event sets -/

theorem raiseIn_lawful {l : List EventEntry} {src : EventSource} {k : Kind} {d : Detail}
    (hnew : EventEntry.lawful ⟨src, k, d, false⟩ = true) (h : ∀ e ∈ l, e.lawful = true) :
    ∀ e ∈ raiseIn l src k d, e.lawful = true := by
  induction l with
  | nil =>
    intro e he
    rw [List.mem_singleton.1 he]
    exact hnew
  | cons x r ih =>
    obtain ⟨hx, hr⟩ := List.forall_mem_cons.1 h
    unfold raiseIn
    split_ifs
    · exact List.forall_mem_cons.2 ⟨hx, hr⟩
    · exact List.forall_mem_cons.2 ⟨hnew, h⟩
    · exact List.forall_mem_cons.2 ⟨hx, ih hr⟩

theorem PortRec.EventLaw.congr {r x : PortRec} (h : r.EventLaw) (he : x.events.Sublist r.events) : x.EventLaw :=
  ⟨h.1.sublist he, fun e hx => h.2 e (he.subset hx)⟩

theorem PortRec.EventLaw.raised {r x : PortRec} {src : EventSource} {k : Kind} {d : Detail} (h : r.EventLaw)
    (hnew : EventEntry.lawful ⟨src, k, d, false⟩ = true) (he : x.events = raiseIn r.events src k d) : x.EventLaw := by
  unfold PortRec.EventLaw
  rw [he]
  exact ⟨raiseIn_sorted src k d h.1, raiseIn_lawful hnew h.2⟩

theorem EventEntry.lawful_chan (c : ChanId) (k : Kind) :
    EventEntry.lawful ⟨.chan c, k, .nothing, false⟩ = decide (k.code ≤ 10) := by
  cases k <;> rfl

theorem OfChannel.nil : OfChannel [] := fun _ h => absurd h List.not_mem_nil

/-- The causes of one channel's event leave every event set lawful. -/
theorem PortRec.EventLaw.raisedAll {r x : PortRec} {c : ChanId} {ks : List Kind} (h : r.EventLaw) (hks : OfChannel ks)
    (he : x.events = ks.foldl (fun l k => raiseIn l (.chan c) k .nothing) r.events) : x.EventLaw := by
  induction ks generalizing r with
  | nil => exact h.congr (he ▸ .refl _)
  | cons k ks ih =>
    obtain ⟨hk, hrest⟩ := List.forall_mem_cons.1 hks
    exact ih (h.raised (x := { r with events := raiseIn r.events (.chan c) k .nothing }) 
      ((EventEntry.lawful_chan c k).trans (decide_eq_true hk)) rfl) hrest he

/-- What an event outside the ticks raises are causes of a channel. -/
theorem ChanDeed.raised {s : State} {c : ChanId} {w : Work} (h : ChanDeed s c w) : OfChannel w.raised := by
  have hnone : OfChannel (s.work c).raised := .nil
  cases h with
  | trigger deaf src => exact (Work.triggerEvent_records deaf src _).raised hnone
  | arm p hidle hcheck => exact hnone
  | disarm hstate => exact hnone
  | stop mode =>
    refine Eq.subst (motive := OfChannel) (Eq.symm ?_) hnone
    unfold Work.stopCommand Work.flushFor
    split
    case h_5 => split_ifs <;> rfl
    case h_6 => split_ifs <;> rfl
    all_goals rfl
  | jump target j hcheck =>
    refine Eq.subst (motive := OfChannel) (Eq.symm ?_) hnone
    unfold Work.jumpCommand
    split
    · rfl
    · unfold Work.jumpRedirect
      split
      · rfl
      · split_ifs <;> rfl
  | static | live | join | start | clearFault | unit | armed => exact hnone

theorem putWork_eventLaw {s : State} (c : ChanId) {w : Work} (hw : OfChannel w.raised) (h : ∀ p, (s.port p).EventLaw) :
    ∀ p, ((s.putWork c w).port p).EventLaw := by
  obtain ⟨-, -, hport, -⟩ := s.putWork_spec c w
  intro p
  exact (h p).raisedAll hw (congrArg PortRec.events (hport p))

theorem raiseTo_eventLaw {s : State} {src : EventSource} {k : Kind} {d : Detail} (p : Port)
    (hnew : EventEntry.lawful ⟨src, k, d, false⟩ = true) (h : ∀ p, (s.port p).EventLaw) :
    ∀ r, ((s.raiseTo p src k d).port r).EventLaw := by
  intro r
  rw [show (s.raiseTo p src k d).port r = _ from PerPort.get_set _ _ _ _]
  split
  · exact (h p).raised hnew rfl
  · exact h r

theorem loseAll_eventLaw {s : State} (h : ∀ p, (s.port p).EventLaw) : ∀ p, (s.loseAll.port p).EventLaw := by
  unfold State.loseAll
  generalize List.finRange 8 = l
  induction l generalizing s with
  | nil => exact h
  | cons c r ih => exact ih (putWork_eventLaw c ((Work.loseClock_records c _).raised .nil) h)

/-- Of the two parts of a tick the causes raised are a channel's. -/
theorem State.ticked_raised (s : State) (c : ChanId) : OfChannel ((s.tickWordOf c).raised ++ (s.tickEndOf c).raised) := by
  intro k hk
  rcases List.mem_append.1 hk with hk | hk
  · exact (Work.tickWord_records _ _ _).raised .nil k hk
  · exact (Work.tickEnd_records _ _ _ _).raised .nil k hk

theorem Deed.eventLaw {q : Prop} {s t : State} (h : Deed q s t) (hs : ∀ p, (s.port p).EventLaw) :
    ∀ p, (t.port p).EventLaw := by
  have hsame : t.ports = s.ports → ∀ p, (t.port p).EventLaw := fun e p => by
    rw [show t.port p = s.port p from congrArg (PerPort.get · p) e]
    exact hs p
  cases h with
  | aside hchans hports => exact hsame hports
  | port p r hsub =>
    intro x
    rw [show (s.setPort p r).port x = _ from PerPort.get_set _ _ _ _]
    split
    · exact (hs p).congr hsub
    · exact hs x
  | raise p src k d hnew => exact raiseTo_eventLaw p hnew hs
  | work c hdeed => exact putWork_eventLaw c hdeed.raised hs
  | list | clock => exact hsame rfl
  | lose => exact loseAll_eventLaw (raiseTo_eventLaw .b rfl (raiseTo_eventLaw .a rfl hs))
  | tick c =>
    obtain ⟨-, -, hport, -, -, -⟩ := s.ticked_spec c
    intro p
    rw [show (s.tickOne c).port p = (s.ticked c).port p by
      rw [s.tickOne_ticked]; exact congrArg (PerPort.get · p) (s.ticked c).arbitrate_ports]
    exact (hs p).raisedAll (s.ticked_raised c) (congrArg PortRec.events (hport p))
  | grant => exact hsame s.arbitrate_ports
  | fetched c b =>
    obtain ⟨-, -, -, hport, -⟩ := fetchTaken_appended s c b
    obtain ⟨_, _, _, e⟩ := s.endRead_eq b
    have hread : ∀ p, (s.endRead b).port p = s.port p := fun p => (congrArg (State.port · p) e).trans rfl
    intro p
    have hp := hport p
    rw [hread] at hp
    split at hp
    · exact (hs p).raised rfl (congrArg PortRec.events hp)
    · rw [hp]
      exact hs p
  | reset hmoved hreset =>
    cases hreset
    intro p
    cases p <;> exact ⟨.nil, nofun⟩

/-! ### Clock -/

theorem State.ClockLaw.congr {s t : State} (h : s.ClockLaw) (hmonitor : t.monitor = s.monitor)
    (hticks : t.ticks = s.ticks) (hplay : ∀ c, (t.chan c).state.playing = true → (s.chan c).state.playing = true) :
    t.ClockLaw := by
  obtain ⟨hedge, hrun, htick, hquiet⟩ := h
  unfold State.ClockLaw State.tickOf
  rw [hmonitor, hticks]
  exact ⟨hedge, hrun, htick, fun hlost c =>
    eq_false_of_ne_true fun hp => absurd (hplay c hp) (by rw [hquiet hlost c]; decide)⟩

theorem Work.stopCommand_playing (c : ChanId) (mode : StopPoint) (w : Work)
    (h : (w.stopCommand c mode).ch.state.playing = true) : w.ch.state.playing = true := by
  cases hs : w.ch.state <;> simp only [Work.stopCommand, hs] at h
  case running | waiting | stopping => rfl
  all_goals exact h

theorem Chan.jumpCheck_playing {k : Chan} {target : Byte} {j : EntryIx} (h : k.jumpCheck target = .ok j) :
    k.state.playing = true := by
  by_contra hp
  unfold Chan.jumpCheck at h
  rw [eq_false_of_ne_true hp] at h
  cases h

/-- No command, trigger event or burst puts a channel into play: an output tick does (R67). -/
theorem ChanDeed.playing {s : State} {c : ChanId} {w : Work} (h : ChanDeed s c w) (hp : w.ch.state.playing = true) :
    (s.chan c).state.playing = true := by
  cases h with
  | trigger deaf src =>
    obtain ⟨-, hframe⟩ := Work.triggerEvent_frame deaf src (s.work c)
    exact (congrArg (fun k : Chan => k.state.playing) hframe :) ▸ hp
  | arm | disarm | armed => cases hp
  | stop mode => exact Work.stopCommand_playing c mode _ hp
  | jump target j hcheck => exact Chan.jumpCheck_playing hcheck
  | static st hstate =>
    refine Eq.trans (congrArg ChanState.playing ?_) hp
    unfold Chan.writeStatic
    split_ifs <;> rfl
  | live given pt hgiven =>
    refine Eq.trans (congrArg ChanState.playing ?_) hp
    unfold Chan.setLive
    split <;> rfl
  | join =>
    refine Eq.trans (congrArg ChanState.playing ?_) hp
    unfold Chan.joinGroup
    split <;> rfl
  | start =>
    refine Eq.trans (congrArg ChanState.playing ?_) hp
    unfold Chan.startCommand
    split <;> rfl
  | clearFault => cases hp
  | unit u m => cases u <;> exact hp

theorem Work.halt_state (c : ChanId) (cause : FaultCause) (w : Work) : (w.halt c cause).ch.state = .halted :=
  (Work.applyStaged_state _).trans rfl

theorem Work.enterIdle_state (c : ChanId) (w : Work) : (w.enterIdle c).ch.state = .idle :=
  (Work.applyStaged_state _).trans rfl

theorem Work.loseClock_playing (c : ChanId) (w : Work) : (w.loseClock c).ch.state.playing = false := by
  unfold Work.loseClock
  split
  case h_1 | h_2 | h_3 => rw [Work.halt_state]; rfl
  all_goals
    rename_i hs
    exact congrArg ChanState.playing hs

/-- Whatever the channels are when the clock is judged lost, none is left in play; monitor, ticks and arbiter are left. -/
theorem foldl_loseClock (l : List ChanId) (s : State) :
    let t := l.foldl (fun t c => t.putWork c ((t.work c).loseClock c)) s
    (∀ c, (t.chan c).state.playing = true → c ∉ l ∧ (s.chan c).state.playing = true)
      ∧ t.monitor = s.monitor ∧ t.ticks = s.ticks ∧ t.arb = s.arb := by
  induction l generalizing s with
  | nil => exact ⟨fun c h => ⟨List.not_mem_nil, h⟩, rfl, rfl, rfl⟩
  | cons d r ih =>
    obtain ⟨hplay, hmonitor, hticks, harb⟩ := ih (s.putWork d ((s.work d).loseClock d))
    obtain ⟨hchan, -, -, hput⟩ := s.putWork_spec d ((s.work d).loseClock d)
    refine ⟨fun c hc => ?_, hmonitor.trans (congrArg State.monitor hput :),
      hticks.trans (congrArg State.ticks hput :), harb.trans (congrArg State.arb hput :)⟩
    obtain ⟨hmem, hp⟩ := hplay c hc
    rw [hchan] at hp
    split at hp
    · rw [Work.loseClock_playing] at hp
      cases hp
    · exact ⟨List.not_mem_cons_of_ne_of_not_mem ‹_› hmem, hp⟩

theorem State.loseAll_spec (s : State) :
    (∀ c, (s.loseAll.chan c).state.playing = false)
      ∧ s.loseAll.monitor = s.monitor ∧ s.loseAll.ticks = s.ticks ∧ s.loseAll.arb = s.arb := by
  obtain ⟨hplay, hrest⟩ := foldl_loseClock (List.finRange 8) s
  exact ⟨fun c => eq_false_of_ne_true fun hp => (hplay c hp).1 (List.mem_finRange c), hrest⟩

/-- When the clock is judged lost, monitor and ticks are as they are put, and no channel is in play (R80). -/
theorem State.lost_spec (s : State) :
    s.lost.monitor = s.monitor.still .lost ∧ s.lost.ticks = Vector.replicate 8 .noTick ∧ s.lost.arb = s.arb
      ∧ ∀ c, (s.lost.chan c).state.playing = false := by
  obtain ⟨hplay, hmonitor, hticks, harb⟩ := State.loseAll_spec (State.raiseBoth
    { s with monitor := s.monitor.still .lost, ticks := Vector.replicate 8 .noTick } .device .clockLost)
  exact ⟨hmonitor, hticks, harb, hplay⟩

theorem Deed.clockLaw {q : Prop} {s t : State} (h : Deed q s t) (hs : s.ClockLaw) : t.ClockLaw := by
  have hframe : ∀ c d, ∀ k : Chan, (k.state.playing = true → (s.chan c).state.playing = true) →
      ((s.setChan c k).chan d).state.playing = true → (s.chan d).state.playing = true := fun c d k hk hd => by
    rw [State.setChan_chan] at hd
    split at hd
    · rename_i e
      exact e ▸ hk hd
    · exact hd
  cases h with
  | aside hchans hports hmonitor hticks =>
    exact hs.congr hmonitor hticks fun c hp => by
      rwa [show t.chan c = s.chan c from congrArg (Vector.get · c) hchans] at hp
  | port | raise => exact hs.congr rfl rfl fun _ => id
  | work c hdeed =>
    obtain ⟨hchan, -, -, hrest⟩ := s.putWork_spec c _
    refine hs.congr (congrArg State.monitor hrest :) (congrArg State.ticks hrest :) fun d hp => ?_
    rw [hchan, ← State.setChan_chan] at hp
    exact hframe c d _ hdeed.playing hp
  | list c l => exact hs.congr rfl rfl fun d => hframe c d _ id
  | clock m k hedge hrun hlost =>
    obtain ⟨hs1, hs2, hs3, hs4⟩ := hs
    refine ⟨hedge hs1, hrun hs2, fun hl c => ?_, fun hl => hs4 (hlost hl).1⟩
    obtain ⟨hl', htick⟩ := hlost hl
    rcases htick c with h | h
    · exact h.trans (hs3 hl' c)
    · exact h
  | lose =>
    obtain ⟨hmonitor, hticks, -, hplay⟩ := s.lost_spec
    unfold State.ClockLaw
    rw [hmonitor]
    refine ⟨le_rfl, (by decide : 0 < 50000), fun _ c => ?_, fun _ => hplay⟩
    exact (congrArg (fun v : Vector TickStatus 8 => v.get c) hticks).trans (get_replicate _ c)
  | tick c hdue =>
    obtain ⟨hedge, hrun, htick, -⟩ := hs
    have hpresent : s.monitor.clock ≠ .lost := fun hl => by
      rw [htick hl c] at hdue
      cases hdue
    obtain ⟨-, -, -, -, -, hrest⟩ := s.ticked_spec c
    have hmonitor : (s.tickOne c).monitor = s.monitor := by
      rw [s.tickOne_ticked, State.arbitrate_monitor]
      exact (congrArg State.monitor hrest :)
    unfold State.ClockLaw
    rw [hmonitor]
    exact ⟨hedge, hrun, fun hl => absurd hl hpresent, fun hl => absurd hl hpresent⟩
  | grant =>
    refine hs.congr s.arbitrate_monitor s.arbitrate_ticks fun c hp => ?_
    exact (congrArg (fun k : Chan => k.state.playing) (s.arbitrate_chan c) :) ▸ hp
  | fetched c b =>
    obtain ⟨hchan, hchans, -, -, hrest⟩ := fetchTaken_appended s c b
    obtain ⟨_, _, _, e⟩ := s.endRead_eq b
    have hread : ∀ d, (s.endRead b).chan d = s.chan d := fun d => (congrArg (State.chan · d) e).trans rfl
    refine hs.congr ((congrArg State.monitor hrest :).trans (congrArg State.monitor e :))
      ((congrArg State.ticks hrest :).trans (congrArg State.ticks e :)) fun d hp => ?_
    by_cases hd : d = c
    · rw [hd, hchan, hread] at hp
      exact hd ▸ hp
    · rw [hchans d hd, hread] at hp
      exact hp
  | reset hmoved hreset =>
    cases hreset
    exact reset_clockLaw

/-! ### Pass-over counts -/

theorem arbitrate_passOver_le {s : State} (h : s.ArbiterLaw) : s.arbitrate.ArbiterLaw := by
  unfold State.arbitrate
  split
  · exact h
  · split
    · exact h
    · rename_i r _
      have hafter : ∀ p, s.passOverAfter r p ≤ 8 := fun p => by
        unfold State.passOverAfter
        split_ifs
        · exact Nat.zero_le 8
        · exact Nat.min_le_left _ _
        · exact h p
      intro p
      cases p
      · exact hafter .a
      · exact hafter .b

theorem Deed.arbiterLaw {q : Prop} {s t : State} (h : Deed q s t) (hs : s.ArbiterLaw) : t.ArbiterLaw := by
  have hsame : t.arb = s.arb → t.ArbiterLaw := fun e p => (congrArg (fun a : Arbiter => a.passOver.get p) e :) ▸ hs p
  cases h with
  | aside hchans hports hmonitor hticks harb => exact fun p => (harb p).trans (hs p)
  | port | raise | list | clock => exact hsame rfl
  | work c =>
    obtain ⟨-, -, -, hrest⟩ := s.putWork_spec c _
    exact hsame (congrArg State.arb hrest :)
  | lose => exact hsame s.lost_spec.2.2.1
  | tick c =>
    obtain ⟨-, -, -, -, -, hrest⟩ := s.ticked_spec c
    rw [s.tickOne_ticked]
    exact arbitrate_passOver_le fun p => (congrArg (fun u : State => u.arb.passOver.get p) hrest :) ▸ hs p
  | grant => exact arbitrate_passOver_le hs
  | fetched c b =>
    obtain ⟨-, -, -, -, hrest⟩ := fetchTaken_appended s c b
    obtain ⟨_, _, _, e⟩ := s.endRead_eq b
    exact hsame ((congrArg State.arb hrest :).trans (congrArg State.arb e :))
  | reset hmoved hreset =>
    cases hreset
    intro p
    cases p <;> exact Nat.zero_le 8

/-! ### Every step -/

/-- A law that every deed keeps is kept by a chain of them. -/
theorem Deeds.keep {q : Prop} {P : State → Prop} (hP : ∀ u v, Deed q u v → P u → P v) {s t : State} (h : Deeds q s t)
    (hs : P s) : P t := by
  induction h with
  | refl => exact hs
  | tail _ hdeed ih => exact hP _ _ hdeed ih

/-- A law that every deed keeps is kept by every step. -/
theorem step_keep {P : State → Prop} (hP : ∀ q u v, Deed q u v → P u → P v) {s t : State} (h : step s = .next t)
    (hs : P s) : P t := by
  rcases step_deeds h with ⟨-, hdeeds⟩ | ⟨i, -, -, -, hdeeds⟩
  · exact hdeeds.keep (hP _) hs
  · exact hdeeds.keep (hP _) hs

/-- Settles O60: each of the three laws is kept by every deed of a step. -/
theorem eventClockAndArbiterLawsKept : Obligations.EventClockAndArbiterLawsKept := by
  intro s t h
  exact ⟨step_keep (P := fun u => ∀ p, (u.port p).EventLaw) (fun _ _ _ => Deed.eventLaw) h,
    step_keep (fun _ _ _ => Deed.clockLaw) h, step_keep (fun _ _ _ => Deed.arbiterLaw) h⟩

end Sys2Proof.Machine
end

section
/-! ## The course of play, operation by operation (R68 to R71, R73, R76, R143 to R148) -/

namespace Sys2Proof.Machine

/-! ### Records -/

/-- The work of an event with the pending record of its channel applied, if it is due. -/
def Work.withRecord (w : Work) (due : Bool) : Work := ⟨(applied w.ch due).1, w.burst, w.raised ++ (applied w.ch due).2⟩

theorem applied_false (k : Chan) : applied k false = (k, []) := rfl

theorem applied_frame (k : Chan) (due : Bool) :
    { (applied k due).1 with live := k.live, staged := k.staged } = k := by
  unfold applied
  split_ifs <;> rfl

/-- The record is left, or it is gone (R143). -/
theorem applied_staged (k : Chan) (due : Bool) : (applied k due).1.staged = k.staged ∨ (applied k due).1.staged = .empty := by
  unfold applied
  split_ifs
  · exact .inr rfl
  · exact .inl rfl

theorem applied_true_staged (k : Chan) (h : k.staged.isEmpty = true → k.staged = .empty) :
    (applied k true).1.staged = .empty := by
  unfold applied
  split_ifs with hdue
  · rfl
  · exact h (by simpa using hdue)

theorem Work.withRecord_false (w : Work) : w.withRecord false = w := by
  unfold Work.withRecord
  rw [applied_false, List.append_nil]

theorem Work.applyStaged_eq (w : Work) : w.applyStaged = w.withRecord true := by
  unfold Work.applyStaged Work.withRecord applied
  cases w.ch.staged.isEmpty
  · rfl
  · exact congrArg (Work.mk w.ch w.burst) (List.append_nil _).symm

theorem Work.applyStaged_if (w : Work) (due : Bool) : (if due = true then w.applyStaged else w) = w.withRecord due := by
  cases due
  · exact w.withRecord_false.symm
  · exact w.applyStaged_eq

theorem Work.startOfTick_eq (w : Work) :
    w.startOfTick = ({ w with ch := { w.ch with updLatch := false } } : Work).withRecord
      (w.ch.staged.group || decide (w.ch.staged.point = some .now)
        || (w.ch.updLatch && decide (w.ch.staged.point = some .trigger))) := by
  rw [← Work.applyStaged_if]
  rfl

theorem Work.applyAtPass_eq (w : Work) : w.applyAtPass = w.withRecord (decide (w.ch.staged.point = some .pass)) := by
  rw [← Work.applyStaged_if]
  unfold Work.applyAtPass
  exact if_congr decide_eq_true_iff.symm rfl rfl

theorem Work.applyAtEntry_eq (w : Work) :
    w.applyAtEntry = w.withRecord (decide (w.ch.staged.point = some .pass) || decide (w.ch.staged.point = some .entry)) := by
  rw [← Work.applyStaged_if]
  unfold Work.applyAtEntry
  refine if_congr ?_ rfl rfl
  rw [Bool.or_eq_true, decide_eq_true_iff, decide_eq_true_iff]

/-! ### Entry starts -/

theorem Marker.pulseAtEntry_eq (m : Marker) (flag : Bool) :
    m.pulseAtEntry flag = if flag = true ∧ (m.mode = .entry ∨ m.mode = .pass) then { m with remaining := m.width } else m := by
  unfold Marker.pulseAtEntry
  refine if_congr ?_ rfl rfl
  rw [Bool.and_eq_true, Bool.or_eq_true, decide_eq_true_iff, decide_eq_true_iff]

theorem Marker.pulseAtPass_eq (m : Marker) (flag : Bool) :
    m.pulseAtPass flag = if flag = true ∧ m.mode = .pass then { m with remaining := m.width } else m := by
  unfold Marker.pulseAtPass
  refine if_congr ?_ rfl rfl
  rw [Bool.and_eq_true, decide_eq_true_iff]

/-- The channel at the start of its current entry, before the record is applied. -/
def Chan.entryStarted (k : Chan) : Chan :=
  { k with
    mk1 := k.mk1.pulseAtEntry ((k.entryAt k.entry).any Entry.mk1)
    mk2 := k.mk2.pulseAtEntry ((k.entryAt k.entry).any Entry.mk2)
    passStalled := false }

theorem Work.startEntry_eq (w : Work) :
    w.startEntry = ({ w with ch := w.ch.entryStarted } : Work).withRecord
      (decide (w.ch.staged.point = some .pass) || decide (w.ch.staged.point = some .entry)) := by
  unfold Work.startEntry Chan.entryStarted
  cases w.ch.entryAt w.ch.entry with
  | none => exact Work.applyAtEntry_eq _
  | some e => exact Work.applyAtEntry_eq _

theorem Work.startEntry_rule (w : Work) : EntryStartRule w w.startEntry := by
  rw [w.startEntry_eq]
  unfold EntryStartRule Work.withRecord Chan.entryStarted
  simp only [Marker.pulseAtEntry_eq]

/-- Entering an entry (R68): no wait, a wait that the advance latch ends at once, or WAITING. -/
theorem Work.enterEntry_eq (j : EntryIx) (carry : Nat) (w : Work) :
    w.enterEntry j carry =
      if (Chan.entryAt { w.ch with entry := j, pass := 0#16 } j).any Entry.wait = false then
        ({ w with ch := { w.ch with entry := j, pass := 0#16, pos := carry } } : Work).startEntry
      else if w.ch.advLatch = true then
        ({ w with ch := { w.ch with entry := j, pass := 0#16, advLatch := false, pos := 0 } } : Work).startEntry
      else { w with ch := { w.ch with entry := j, pass := 0#16, pos := 0, state := .waiting, scaled := 0 } } := by
  unfold Work.enterEntry
  refine if_congr ?_ rfl (if_congr .rfl rfl rfl)
  dsimp only [Chan.entryAt]
  cases w.ch.list[j.val]? with
  | none => exact ⟨fun _ => rfl, fun _ => rfl⟩
  | some e =>
    dsimp only [Option.any_some]
    cases e.wait <;> decide

theorem Work.enterEntry_rule (w : Work) (j : EntryIx) (carry : Nat) : EnterRule w (w.enterEntry j carry) j carry := by
  rw [w.enterEntry_eq]
  unfold EnterRule
  dsimp only
  split_ifs
  · exact Work.startEntry_rule _
  · exact Work.startEntry_rule _
  · rfl

/-! ### Entering IDLE -/

theorem dropBurst_eq (c : ChanId) (o : Option Burst) : dropBurst c o = droppedFor o fun d => decide (d = c) := by
  cases o with
  | none => rfl
  | some b =>
    unfold dropBurst droppedFor Burst.isOf
    cases hr : b.requester with
    | loadUnit p => simp [hr]
    | fetcher d => by_cases hd : d = c <;> simp [hr, hd]

theorem Work.enterIdle_rule (c : ChanId) (w : Work) : IdleRule c w (w.enterIdle c) := by
  unfold IdleRule Work.enterIdle
  rw [Work.applyStaged_eq, ← dropBurst_eq]
  rfl

/-! ### The beginning of a tick -/

/-- The rule of the beginning of a tick, with what the application of the record leaves named. -/
theorem beginRule_iff (w w' : Work) (phase : Phase) :
    BeginRule w w' phase ↔ match w.ch.state with
      | .idle | .arming => w' = w ∧ phase = .idleWord
      | .halted => w' = w ∧ phase = .parkWord
      | .armed =>
        if w.ch.startPending = false then w' = w ∧ phase = .idleWord
        else
          EnterRule
              ⟨{ w.ch with
                startPending := false, startLatch := false, entry := 0, pass := 0#16, pos := 0, state := .running },
                w.burst, w.raised ++ [.started]⟩ w' 0 0
            ∧ phase = if w'.ch.state = .waiting then .hold else .play
      | .running => w' = w.startOfTick ∧ phase = .play
      | .stopping => w' = w.startOfTick ∧ phase = if w.startOfTick.ch.stop = some .immediate then .stopNow else .play
      | .waiting =>
        if w.startOfTick.ch.stop = some .immediate then w' = w.startOfTick ∧ phase = .stopNow
        else if w.startOfTick.ch.startRequest = true then
          phase = .play
            ∧ EntryStartRule
                { w.startOfTick with ch := { w.startOfTick.ch with
                    startRequest := false, pos := 0, pass := 0#16,
                    state := if w.startOfTick.ch.stop = some .atListEnd then .stopping else .running } } w'
        else w' = w.startOfTick ∧ phase = .hold := by
  have hstop : w.startOfTick.ch.stop = w.ch.stop := by
    rw [w.startOfTick_eq]
    exact (congrArg Chan.stop (applied_frame _ _) :)
  have hreq : w.startOfTick.ch.startRequest = w.ch.startRequest := by
    rw [w.startOfTick_eq]
    exact (congrArg Chan.startRequest (applied_frame _ _) :)
  rw [hstop, hreq, w.startOfTick_eq]
  exact .rfl

/-- Settles O39: what comes first in a tick, by the state of the channel. -/
theorem ticksBegin : Obligations.TicksBegin := by
  intro w
  rw [beginRule_iff]
  unfold Work.beginTick
  cases w.ch.state with
  | idle | arming | halted | running | stopping => exact ⟨rfl, rfl⟩
  | armed =>
    dsimp only
    cases w.ch.startPending with
    | false => exact ⟨rfl, rfl⟩
    | true => exact ⟨Work.enterEntry_rule _ _ _, rfl⟩
  | waiting =>
    generalize w.startOfTick = v
    dsimp only
    split_ifs
    · exact ⟨rfl, rfl⟩
    · exact ⟨rfl, Work.startEntry_rule _⟩
    · exact ⟨rfl, Work.startEntry_rule _⟩
    · exact ⟨rfl, rfl⟩

/-! ### Pass ends -/

theorem loops_iff (k : Chan) : k.loops = true ↔ k.stat.endMode = .loop ∧ k.stop ≠ some .atListEnd := by
  unfold Chan.loops
  rw [Bool.and_eq_true, decide_eq_true_iff, decide_eq_true_iff]

/-- The causes raised one after another at the end of an event. -/
theorem Work.raise_raise (w : Work) (a b : Kind) : (w.raise a).raise b = { w with raised := w.raised ++ [a, b] } := by
  unfold Work.raise
  rw [List.append_assoc]
  rfl

/-- List end (R70). -/
theorem Work.listEnd_rule (c : ChanId) (carry : Nat) (afterLeave : Bool) (w : Work) :
    if w.ch.stat.endMode = .loop ∧ w.ch.stop ≠ some .atListEnd then
      EnterRule (if afterLeave = true then w.refetchFrom c 0 else w) (w.listEnd c carry afterLeave) 0 carry
    else
      ∃ v, IdleRule c { w with ch := { w.ch with pos := carry } } v
        ∧ w.listEnd c carry afterLeave
          = { v with raised := v.raised ++ (.listDone :: if w.ch.stop = some .atListEnd then [.stopped] else []) } := by
  unfold Work.listEnd
  by_cases hloop : w.ch.loops = true
  · rw [if_pos ((loops_iff _).1 hloop), if_pos hloop]
    exact Work.enterEntry_rule _ _ _
  · rw [if_neg fun h => hloop ((loops_iff _).2 h), if_neg hloop]
    refine ⟨_, Work.enterIdle_rule c _, ?_⟩
    dsimp only
    by_cases hstop : w.ch.stop = some .atListEnd
    · rw [if_pos (decide_eq_true hstop), if_pos hstop]
      exact Work.raise_raise _ _ _
    · rw [if_neg fun h => hstop (of_decide_eq_true h), if_neg hstop]
      rfl

theorem Work.refetchFrom_eq (c : ChanId) (j : EntryIx) (w : Work) :
    w.refetchFrom c j = ⟨{ w.ch with fifo := [], target := none, cursor := some ⟨j, 0#16, 0⟩ },
      droppedFor w.burst fun d => decide (d = c), w.raised⟩ := by
  rw [← dropBurst_eq]
  rfl

/-- A pass start that is no entry start (case 4 of R69). -/
def Chan.passStarted (k : Chan) (carry : Nat) : Chan :=
  { k with
    pos := carry, passStalled := false
    mk1 := k.mk1.pulseAtPass ((k.entryAt k.entry).any Entry.mk1)
    mk2 := k.mk2.pulseAtPass ((k.entryAt k.entry).any Entry.mk2) }

/-- The six cases of R69, through the operations they use. -/
theorem Work.afterPass_eq (c : ChanId) (carry : Nat) (w : Work) :
    w.afterPass c carry =
      if w.ch.stop = some .atPass then (({ w with ch := { w.ch with pos := carry } } : Work).enterIdle c).raise .stopped
      else match w.ch.jump with
        | some t => ({ w with ch := { w.ch with jump := none } } : Work).enterEntry t carry
        | none =>
          if (w.ch.entryAt w.ch.entry).any Entry.leave = true ∧ w.ch.advLatch = true then
            match successor w.ch.list w.ch.entry with
            | some t =>
              (({ w with ch := { w.ch with advLatch := false } } : Work).refetchFrom c t).enterEntry t carry
            | none => ({ w with ch := { w.ch with advLatch := false } } : Work).listEnd c carry true
          else if ((w.ch.entryAt w.ch.entry).any fun e => e.morePasses w.ch.pass.toNat) = true then
            ({ w with ch := w.ch.passStarted carry } : Work).withRecord (decide (w.ch.staged.point = some .pass))
          else match successor w.ch.list w.ch.entry with
            | some t => w.enterEntry t carry
            | none => w.listEnd c carry false := by
  unfold Work.afterPass
  refine if_congr .rfl rfl ?_
  cases w.ch.jump with
  | some t => rfl
  | none =>
    dsimp only
    unfold Chan.passStarted
    cases w.ch.entryAt w.ch.entry with
    | none => rfl
    | some e => exact if_congr (by rw [Bool.and_eq_true]; rfl) rfl (if_congr .rfl (Work.applyAtPass_eq _) rfl)

/-- The entry has more passes (R43). -/
theorem any_morePasses (o : Option Entry) (n : Nat) :
    (o.any fun e => e.morePasses n) = o.any fun e => decide (e.repeats = 0#16) || decide (n < e.repeats.toNat) := rfl

/-- Settles O40: the six cases of R69 in their order, each through the rule of the operation it ends in. -/
theorem passesEnd : Obligations.PassesEnd := by
  intro w c carry
  rw [w.afterPass_eq]
  unfold PassRule
  dsimp only
  by_cases hpass : w.ch.stop = some .atPass
  · rw [if_pos hpass, if_pos hpass]
    exact ⟨_, Work.enterIdle_rule c _, rfl⟩
  rw [if_neg hpass, if_neg hpass]
  cases hjump : w.ch.jump with
  | some t => exact Work.enterEntry_rule _ _ _
  | none =>
    dsimp only
    by_cases hleave : (w.ch.entryAt w.ch.entry).any Entry.leave = true ∧ w.ch.advLatch = true
    · rw [if_pos hleave, if_pos hleave]
      cases successor w.ch.list w.ch.entry with
      | some t =>
        dsimp only
        rw [Work.refetchFrom_eq]
        exact Work.enterEntry_rule _ _ _
      | none =>
        have hend := ({ w with ch := { w.ch with advLatch := false } } : Work).listEnd_rule c carry true
        rw [if_pos rfl, Work.refetchFrom_eq] at hend
        dsimp only at hend
        rw [hjump] at hend
        exact hend
    rw [if_neg hleave, if_neg hleave]
    by_cases hmore : ((w.ch.entryAt w.ch.entry).any fun e => e.morePasses w.ch.pass.toNat) = true
    · rw [if_pos hmore, if_pos ((any_morePasses _ _).symm.trans hmore)]
      unfold Work.withRecord Chan.passStarted
      simp only [Marker.pulseAtPass_eq]
      rw [hjump]
    · rw [if_neg hmore, if_neg fun h => hmore ((any_morePasses _ _).trans h)]
      cases successor w.ch.list w.ch.entry with
      | some t => exact Work.enterEntry_rule _ _ _
      | none => exact w.listEnd_rule c carry false

end Sys2Proof.Machine
end

section
/-! ## The laws of a channel through play (R57, R65, R71, R73, R76, R109, R113, R139) -/

namespace Sys2Proof.Machine

/-- The course, record, flush and underrun laws of a channel, taken apart. -/
structure Chan.Lawful (k : Chan) : Prop where
  fault : k.fault.isSome ↔ k.state = .halted
  stopping : k.state = .stopping → k.stop.isSome
  waiting : k.state = .waiting → k.stop ≠ some .atPass
  going : k.state ≠ .stopping → k.state ≠ .waiting → k.stop = none
  jump : k.jump.isSome → k.state = .running ∨ k.state = .stopping
  startPending : k.startPending = true → k.state = .arming ∨ k.state = .armed
  startLatch : k.startLatch = true → k.startPending = true
  startRequest : k.startRequest = true → k.state = .waiting
  advLatch : k.advLatch = true → k.state.playing = true
  updLatch : k.updLatch = true → k.state.playing = true
  atStart : k.state = .waiting → k.pos = 0 ∧ k.pass = 0#16
  exit : k.state = .waiting → k.advLatch = true → k.startRequest = true
  empty : k.staged.isEmpty = true → k.staged = .empty
  point : k.staged.isEmpty = false → k.staged.point.isSome ∧ k.state.playing = true
  flushed : k.FlushedLaw
  underrun : k.UnderrunLaw

theorem Chan.lawful_iff (k : Chan) :
    k.Lawful ↔ k.CourseLaw ∧ k.RecordLaw ∧ k.FlushedLaw ∧ k.UnderrunLaw := by
  constructor
  · intro h
    refine ⟨⟨h.fault, ?_, h.jump, h.startPending, h.startLatch, h.startRequest, h.advLatch, h.updLatch, h.atStart,
      h.exit⟩, ?_, h.flushed, h.underrun⟩
    · cases hs : k.state with
      | stopping => exact h.stopping hs
      | waiting => exact h.waiting hs
      | idle | arming | armed | running | halted => exact h.going (by rw [hs]; nofun) (by rw [hs]; nofun)
    · unfold Chan.RecordLaw
      split
      · exact h.empty ‹_›
      · exact h.point (eq_false_of_ne_true ‹_›)
  · rintro ⟨⟨hfault, hstop, hjump, hpending, hlatch, hrequest, hadv, hupd, hstart, hexit⟩, hrecord, hflushed, hunderrun⟩
    refine ⟨hfault, fun e => ?_, fun e => ?_, fun h1 h2 => ?_, hjump, hpending, hlatch, hrequest, hadv, hupd, hstart, hexit,
      fun e => ?_, fun e => ?_, hflushed, hunderrun⟩
    · rw [e] at hstop
      exact hstop
    · rw [e] at hstop
      exact hstop
    · cases hs : k.state with
      | stopping => exact absurd hs h1
      | waiting => exact absurd hs h2
      | idle | arming | armed | running | halted =>
        rw [hs] at hstop
        exact hstop
    · unfold Chan.RecordLaw at hrecord
      rwa [if_pos e] at hrecord
    · unfold Chan.RecordLaw at hrecord
      rwa [if_neg (by rw [e]; nofun)] at hrecord

/-! ### In play -/

/-- What is true of a channel in play, in each of its states; n bounds the consecutive underrun count. -/
structure Chan.Alive (n : Nat) (k : Chan) : Prop where
  fault : k.fault = none
  startPending : k.startPending = false
  startLatch : k.startLatch = false
  empty : k.staged.isEmpty = true → k.staged = .empty
  point : k.staged.isEmpty = false → k.staged.point.isSome
  consec : k.consec ≤ n

/-- RUNNING or STOPPING. -/
structure Chan.Moves (n : Nat) (k : Chan) : Prop extends k.Alive n where
  course : k.state = .running ∧ k.stop = none ∨ k.state = .stopping ∧ k.stop.isSome
  startRequest : k.startRequest = false

/-- WAITING. -/
structure Chan.Waits (n : Nat) (k : Chan) : Prop extends k.Alive n where
  state : k.state = .waiting
  stop : k.stop ≠ some .atPass
  jump : k.jump = none
  atStart : k.pos = 0 ∧ k.pass = 0#16
  exit : k.advLatch = true → k.startRequest = true

theorem Chan.Moves.state_eq {n : Nat} {k : Chan} (h : k.Moves n) : k.state = .running ∨ k.state = .stopping :=
  h.course.imp And.left And.left

theorem Chan.Moves.playing {n : Nat} {k : Chan} (h : k.Moves n) : k.state.playing = true := by
  rcases h.state_eq with e | e <;> rw [e] <;> rfl

theorem Chan.Waits.playing {n : Nat} {k : Chan} (h : k.Waits n) : k.state.playing = true := congrArg _ h.state

theorem ChanState.active_of_playing {k : ChanState} (h : k.playing = true) : k.active = true := by
  cases k <;> first | rfl | cases h

/-- No law of a channel in play is about its state of rest. -/
theorem underrunLaw_of_alive {k : Chan} (h : k.Alive 2) : k.UnderrunLaw := by
  unfold Chan.UnderrunLaw
  rw [h.fault, if_neg (fun e => nomatch e.2)]
  exact h.consec

theorem Chan.Moves.lawful {k : Chan} (h : k.Moves 2) : k.Lawful := by
  have hplay := h.playing
  have hstate := h.state_eq
  have hne : ∀ x : ChanState, x ≠ .running → x ≠ .stopping → k.state ≠ x := fun x h1 h2 e => by
    rcases hstate with e' | e' <;> rw [e] at e'
    exacts [h1 e', h2 e']
  refine ⟨?_, fun e => ?_, fun e => absurd e (hne _ nofun nofun), fun h1 _ => ?_, fun _ => hstate, ?_, ?_, ?_,
    fun _ => hplay, fun _ => hplay, fun e => absurd e (hne _ nofun nofun), fun e => absurd e (hne _ nofun nofun), h.empty,
    fun e => ⟨h.point e, hplay⟩, ?_, underrunLaw_of_alive h.toAlive⟩
  · rw [h.fault]
    exact ⟨nofun, fun e => absurd e (hne _ nofun nofun)⟩
  · rcases h.course with ⟨e', -⟩ | ⟨-, hs⟩
    · rw [e] at e'
      cases e'
    · exact hs
  · rcases h.course with ⟨-, hs⟩ | ⟨e', -⟩
    · exact hs
    · exact absurd e' h1
  · rw [h.startPending]
    nofun
  · rw [h.startLatch]
    nofun
  · rw [h.startRequest]
    nofun
  · rintro (e | e)
    · exact absurd e (hne _ nofun nofun)
    · exact absurd e (hne _ nofun nofun)

theorem Chan.Waits.lawful {k : Chan} (h : k.Waits 2) : k.Lawful := by
  have hplay := h.playing
  refine ⟨?_, ?_, fun _ => h.stop, fun _ e => absurd h.state e, ?_, ?_, ?_, fun _ => h.state, fun _ => hplay,
    fun _ => hplay, fun _ => h.atStart, fun _ => h.exit, h.empty, fun e => ⟨h.point e, hplay⟩, ?_,
    underrunLaw_of_alive h.toAlive⟩
  · rw [h.fault, h.state]
    exact ⟨nofun, nofun⟩
  · rw [h.state]
    nofun
  · rw [h.jump]
    nofun
  · rw [h.startPending]
    nofun
  · rw [h.startLatch]
    nofun
  · unfold Chan.FlushedLaw
    rw [h.state]
    rintro (e | e) <;> cases e

/-- The count is 3 in HALTED at most (R109). -/
theorem Chan.Lawful.consec_le {k : Chan} (h : k.Lawful) (hs : k.state ≠ .halted) : k.consec ≤ 2 := by
  have hunderrun := h.underrun
  unfold Chan.UnderrunLaw at hunderrun
  rwa [if_neg fun e => hs e.1] at hunderrun

theorem Chan.Lawful.alive {k : Chan} (h : k.Lawful) (hp : k.state.playing = true) : k.Alive 2 := by
  have hfault : k.fault = none := by
    rw [← Option.not_isSome_iff_eq_none, h.fault]
    intro e
    rw [e] at hp
    cases hp
  have hpending : k.startPending = false := eq_false_of_ne_true fun e => by
    rcases h.startPending e with e' | e' <;> rw [e'] at hp <;> cases hp
  refine ⟨hfault, hpending, eq_false_of_ne_true fun e => ?_, h.empty, fun e => (h.point e).1, h.consec_le fun e => ?_⟩
  · rw [h.startLatch e] at hpending
    cases hpending
  · rw [e] at hp
    cases hp

theorem Chan.Lawful.moves {k : Chan} (h : k.Lawful) (hs : k.state = .running ∨ k.state = .stopping) : k.Moves 2 := by
  have hne : k.state ≠ .waiting := by rcases hs with e | e <;> rw [e] <;> nofun
  refine ⟨h.alive (by rcases hs with e | e <;> rw [e] <;> rfl), ?_, eq_false_of_ne_true fun e => hne (h.startRequest e)⟩
  rcases hs with e | e
  · exact .inl ⟨e, h.going (by rw [e]; nofun) hne⟩
  · exact .inr ⟨e, h.stopping e⟩

theorem Chan.Lawful.waits {k : Chan} (h : k.Lawful) (hs : k.state = .waiting) : k.Waits 2 := by
  refine ⟨h.alive (congrArg _ hs), hs, h.waiting hs, ?_, h.atStart hs, h.exit hs⟩
  rw [← Option.not_isSome_iff_eq_none]
  intro e
  rcases h.jump e with e' | e' <;> rw [hs] at e' <;> cases e'

/-! ### What keeps a channel in play as it is -/

/-- The fields that `Chan.Alive` sees but for the count. -/
def Chan.gist (k : Chan) : Option FaultRec × Bool × Bool × PendingRec := (k.fault, k.startPending, k.startLatch, k.staged)

/-- The fields that tell RUNNING from STOPPING. -/
def Chan.gait (k : Chan) : ChanState × Option StopPoint × Bool := (k.state, k.stop, k.startRequest)

theorem Chan.Alive.congr {n m : Nat} {k x : Chan} (h : k.Alive n) (hx : x.gist = k.gist) (hc : x.consec ≤ m) :
    x.Alive m := by
  obtain ⟨hfault, hpending, hlatch, hstaged⟩ := by simpa only [Chan.gist, Prod.mk.injEq] using hx
  refine ⟨hfault.trans h.fault, hpending.trans h.startPending, hlatch.trans h.startLatch, ?_, ?_, hc⟩
  · rw [hstaged]
    exact h.empty
  · rw [hstaged]
    exact h.point

theorem Chan.Moves.congr {n m : Nat} {k x : Chan} (h : k.Moves n) (hx : x.gist = k.gist) (hm : x.gait = k.gait)
    (hc : x.consec ≤ m) : x.Moves m := by
  obtain ⟨hstate, hstop, hrequest⟩ := by simpa only [Chan.gait, Prod.mk.injEq] using hm
  refine ⟨h.toAlive.congr hx hc, ?_, hrequest.trans h.startRequest⟩
  rw [hstate, hstop]
  exact h.course

/-- The pending record applied or not. -/
theorem Chan.Alive.applied {n : Nat} {k : Chan} (h : k.Alive n) (due : Bool) : (applied k due).1.Alive n := by
  have hframe := applied_frame k due
  generalize hx : (Sys2Proof.Machine.applied k due).1 = x at hframe
  have hstaged : x.staged = k.staged ∨ x.staged = .empty := hx ▸ applied_staged k due
  refine ⟨(congrArg Chan.fault hframe :).trans h.fault, (congrArg Chan.startPending hframe :).trans h.startPending,
    (congrArg Chan.startLatch hframe :).trans h.startLatch, fun e => ?_, fun e => ?_,
    (congrArg Chan.consec hframe :).trans_le h.consec⟩
  · rcases hstaged with hs | hs
    · rw [hs] at e ⊢
      exact h.empty e
    · exact hs
  · rcases hstaged with hs | hs <;> rw [hs] at e ⊢
    · exact h.point e
    · cases e

theorem applied_gait (k : Chan) (due : Bool) : (applied k due).1.gait = k.gait := by
  have hframe := applied_frame k due
  exact (congrArg Chan.gait hframe :)

theorem Chan.Moves.applied {n : Nat} {k : Chan} (h : k.Moves n) (due : Bool) : (applied k due).1.Moves n := by
  obtain ⟨hstate, hstop, hrequest⟩ := by simpa only [Chan.gait, Prod.mk.injEq] using applied_gait k due
  refine ⟨h.toAlive.applied due, ?_, hrequest.trans h.startRequest⟩
  rw [hstate, hstop]
  exact h.course

theorem Chan.Waits.applied {n : Nat} {k : Chan} (h : k.Waits n) (due : Bool) : (applied k due).1.Waits n := by
  have hframe := applied_frame k due
  obtain ⟨hstate, hstop, hrequest⟩ := by simpa only [Chan.gait, Prod.mk.injEq] using applied_gait k due
  refine ⟨h.toAlive.applied due, hstate.trans h.state, hstop ▸ h.stop, (congrArg Chan.jump hframe :).trans h.jump,
    ⟨(congrArg Chan.pos hframe :).trans h.atStart.1, (congrArg Chan.pass hframe :).trans h.atStart.2⟩, fun e => ?_⟩
  exact hrequest.trans (h.exit ((congrArg Chan.advLatch hframe :).symm.trans e))

/-! ### The operations of a tick -/

theorem Work.withRecord_moves {n : Nat} {w : Work} (h : w.ch.Moves n) (due : Bool) : (w.withRecord due).ch.Moves n :=
  h.applied due

theorem Work.withRecord_waits {n : Nat} {w : Work} (h : w.ch.Waits n) (due : Bool) : (w.withRecord due).ch.Waits n :=
  h.applied due

theorem Work.startOfTick_moves {n : Nat} {w : Work} (h : w.ch.Moves n) : w.startOfTick.ch.Moves n := by
  rw [w.startOfTick_eq]
  exact Work.withRecord_moves (w := { w with ch := { w.ch with updLatch := false } })
    (h.congr rfl rfl h.consec) _

theorem Work.startOfTick_waits {n : Nat} {w : Work} (h : w.ch.Waits n) : w.startOfTick.ch.Waits n := by
  rw [w.startOfTick_eq]
  exact Work.withRecord_waits (w := { w with ch := { w.ch with updLatch := false } })
    ⟨h.toAlive.congr rfl h.consec, h.state, h.stop, h.jump, h.atStart, h.exit⟩ _

theorem Work.startEntry_moves {n : Nat} {w : Work} (h : w.ch.Moves n) : w.startEntry.ch.Moves n := by
  rw [w.startEntry_eq]
  exact Work.withRecord_moves (w := { w with ch := w.ch.entryStarted }) (h.congr rfl rfl h.consec) _

/-- In play; then the rest of the tick, if it ends a pass, has only to be bounded. -/
def Chan.Live (n : Nat) (k : Chan) : Prop := k.Moves n ∨ k.Waits n

theorem Chan.Live.alive {n : Nat} {k : Chan} (h : k.Live n) : k.Alive n := h.elim (·.toAlive) (·.toAlive)

theorem Chan.Live.lawful {k : Chan} (h : k.Live 2) : k.Lawful := h.elim (·.lawful) (·.lawful)

theorem Chan.Live.active {n : Nat} {k : Chan} (h : k.Live n) : k.state.active = true :=
  ChanState.active_of_playing (h.elim (·.playing) (·.playing))

theorem Chan.Lawful.live {k : Chan} (h : k.Lawful) (hp : k.state.playing = true) : k.Live 2 := by
  rcases (ChanState.playing_iff _).1 hp with e | e | e
  · exact .inl (h.moves (.inl e))
  · exact .inr (h.waits e)
  · exact .inl (h.moves (.inr e))

/-- An entry entered with no jump stored and no stop at the pass end (R68, R71, R73). -/
theorem Work.enterEntry_live {n : Nat} {w : Work} (h : w.ch.Moves n) (hjump : w.ch.jump = none)
    (hstop : w.ch.stop ≠ some .atPass) (j : EntryIx) (carry : Nat) : (w.enterEntry j carry).ch.Live n := by
  rw [w.enterEntry_eq]
  split_ifs with hgo hadv
  · exact .inl (Work.startEntry_moves (h.congr rfl rfl h.consec))
  · exact .inl (Work.startEntry_moves (h.congr rfl rfl h.consec))
  · exact .inr ⟨h.toAlive.congr rfl h.consec, rfl, hstop, hjump, ⟨rfl, rfl⟩, fun e => absurd e hadv⟩

/-! ### At rest -/

/-- No burst in flight that is to be kept is channel c's. -/
def NoneKept (c : ChanId) (o : Option Burst) : Prop := ∀ b, o = some b → b.requester = .fetcher c → b.keep = false

theorem dropBurst_noneKept (c : ChanId) (o : Option Burst) : NoneKept c (dropBurst c o) := by
  intro b hb hreq
  cases o with
  | none => cases hb
  | some x =>
    unfold dropBurst at hb
    dsimp only at hb
    split_ifs at hb with hown <;> obtain rfl := Option.some.inj hb
    · rfl
    · exact absurd (decide_eq_true hreq) hown

/-- A channel keeps its laws through an event, and of a channel that is not active no burst in flight is to be kept. -/
structure Work.Ok (c : ChanId) (w : Work) : Prop where
  lawful : w.ch.Lawful
  kept : w.ch.state.active = true ∨ NoneKept c w.burst

theorem Work.ok_of_live {c : ChanId} {w : Work} (h : w.ch.Live 2) : w.Ok c := ⟨h.lawful, .inl h.active⟩

theorem Work.Ok.raise {c : ChanId} {w : Work} (h : w.Ok c) (k : Kind) : (w.raise k).Ok c := ⟨h.lawful, h.kept⟩

/-- The state of rest that an end of play leaves, before the record is applied. -/
structure Chan.Ended (k : Chan) : Prop where
  state : k.state = .idle ∧ k.fault = none ∨ k.state = .halted ∧ k.fault.isSome
  stop : k.stop = none
  jump : k.jump = none
  startPending : k.startPending = false
  startRequest : k.startRequest = false
  latches : k.startLatch = false ∧ k.advLatch = false ∧ k.updLatch = false
  flushed : k.fifo = [] ∧ k.cursor = none ∧ k.target = none ∧ k.underrun = false ∧ k.passStalled = false
  empty : k.staged.isEmpty = true → k.staged = .empty
  underrun : k.UnderrunLaw

/-- The record is applied when play ends (R148). -/
theorem Chan.Ended.lawful {k : Chan} (h : k.Ended) : (applied k true).1.Lawful := by
  have hstaged := applied_true_staged k h.empty
  have hframe := applied_frame k true
  generalize (applied k true).1 = x at hstaged hframe
  have hstate : x.state = k.state := (congrArg Chan.state hframe :)
  have hfault : x.fault = k.fault := (congrArg Chan.fault hframe :)
  have hconsec : x.consec = k.consec := (congrArg Chan.consec hframe :)
  have hrest : ∀ y : ChanState, y ≠ .idle → y ≠ .halted → x.state ≠ y := fun y h1 h2 e => by
    rcases h.state with ⟨e', -⟩ | ⟨e', -⟩ <;> rw [hstate.symm.trans e] at e'
    exacts [h1 e', h2 e']
  refine ⟨?_, fun e => absurd e (hrest _ nofun nofun), fun e => absurd e (hrest _ nofun nofun), fun _ _ => ?_, fun e => ?_,
    fun e => ?_, fun e => ?_, fun e => ?_, fun e => ?_, fun e => ?_, fun e => absurd e (hrest _ nofun nofun),
    fun e => absurd e (hrest _ nofun nofun), fun _ => hstaged, fun e => ?_, fun _ => ?_, ?_⟩
  · rw [hstate, hfault]
    rcases h.state with ⟨e, f⟩ | ⟨e, f⟩ <;> rw [e]
    · rw [f]
      exact ⟨nofun, nofun⟩
    · exact ⟨fun _ => rfl, fun _ => f⟩
  · exact (congrArg Chan.stop hframe :).trans h.stop
  · rw [show x.jump = none from (congrArg Chan.jump hframe :).trans h.jump] at e
    cases e
  · rw [show x.startPending = false from (congrArg Chan.startPending hframe :).trans h.startPending] at e
    cases e
  · rw [show x.startLatch = false from (congrArg Chan.startLatch hframe :).trans h.latches.1] at e
    cases e
  · rw [show x.startRequest = false from (congrArg Chan.startRequest hframe :).trans h.startRequest] at e
    cases e
  · rw [show x.advLatch = false from (congrArg Chan.advLatch hframe :).trans h.latches.2.1] at e
    cases e
  · rw [show x.updLatch = false from (congrArg Chan.updLatch hframe :).trans h.latches.2.2] at e
    cases e
  · rw [hstaged] at e
    cases e
  · obtain ⟨h1, h2, h3, h4, h5⟩ := h.flushed
    exact ⟨(congrArg Chan.fifo hframe :).trans h1, (congrArg Chan.cursor hframe :).trans h2,
      (congrArg Chan.target hframe :).trans h3, (congrArg Chan.underrun hframe :).trans h4,
      (congrArg Chan.passStalled hframe :).trans h5⟩
  · have hunderrun := h.underrun
    unfold Chan.UnderrunLaw at hunderrun ⊢
    rw [hstate, hfault, hconsec]
    exact hunderrun

/-- The channel that enters IDLE from play, before the record is applied (R73, R113, R123, R133). -/
def Chan.toIdle (k : Chan) : Chan :=
  { k with
    state := .idle, fifo := [], cursor := none, target := none, underrun := false, passStalled := false, stop := none,
    jump := none, startRequest := false, startLatch := false, advLatch := false, updLatch := false, clipOpen := false,
    mk1 := k.mk1.silence, mk2 := k.mk2.silence }

theorem Work.enterIdle_eq (c : ChanId) (w : Work) :
    w.enterIdle c = (⟨w.ch.toIdle, dropBurst c w.burst, w.raised⟩ : Work).withRecord true := by
  unfold Work.enterIdle
  rw [Work.applyStaged_eq]
  rfl

theorem Chan.Alive.toIdle {k : Chan} (h : k.Alive 2) : k.toIdle.Ended := by
  refine ⟨.inl ⟨rfl, h.fault⟩, rfl, rfl, h.startPending, rfl, ⟨rfl, rfl, rfl⟩, ⟨rfl, rfl, rfl, rfl, rfl⟩, h.empty, ?_⟩
  unfold Chan.UnderrunLaw
  rw [if_neg fun e => nomatch e.1]
  exact h.consec

theorem Work.enterIdle_ok {c : ChanId} {w : Work} (h : w.ch.Alive 2) : (w.enterIdle c).Ok c := by
  rw [w.enterIdle_eq]
  exact ⟨h.toIdle.lawful, .inr (dropBurst_noneKept c w.burst)⟩

/-- The channel that enters HALTED, before the record is applied (R76, R113, R123, R133). -/
def Chan.toHalted (k : Chan) (cause : FaultCause) : Chan :=
  { k.toIdle.place k.stat.park with
    state := .halted, startPending := false
    fault := some ⟨cause, k.entry, k.pass, if k.state = .waiting then 0 else posIndex k.pos, k.state⟩ }

theorem Work.halt_eq (c : ChanId) (cause : FaultCause) (w : Work) :
    w.halt c cause
      = (⟨w.ch.toHalted cause, dropBurst c w.burst, w.raised ++ [.fault]⟩ : Work).withRecord true := by
  unfold Work.halt
  rw [Work.applyStaged_eq]
  rfl

/-- The count is 3 exactly where the cause is STARVED (R109). -/
theorem Chan.toHalted_ended {k : Chan} {cause : FaultCause} (h : k.staged.isEmpty = true → k.staged = .empty)
    (hcount : if cause = .starved then k.consec = 3 else k.consec ≤ 2) : (k.toHalted cause).Ended := by
  refine ⟨.inr ⟨rfl, rfl⟩, rfl, rfl, rfl, rfl, ⟨rfl, rfl, rfl⟩, ⟨rfl, rfl, rfl, rfl, rfl⟩, h, ?_⟩
  cases cause <;> exact hcount

theorem Work.halt_ok {c : ChanId} {w : Work} {cause : FaultCause} (h : w.ch.staged.isEmpty = true → w.ch.staged = .empty)
    (hcount : if cause = .starved then w.ch.consec = 3 else w.ch.consec ≤ 2) : (w.halt c cause).Ok c := by
  rw [w.halt_eq]
  exact ⟨(Chan.toHalted_ended h hcount).lawful, .inr (dropBurst_noneKept c w.burst)⟩

end Sys2Proof.Machine
end

section
/-! ### Pass ends and ticks keep the laws -/

namespace Sys2Proof.Machine

/-! ### What the laws do not see -/

/-- Settings, levels, the lane and the markers are not seen by the laws. -/
theorem Chan.Lawful.congr {k x : Chan} (hk : k.Lawful)
    (h : { x with
      entry := k.entry, lane := k.lane, totalUnder := k.totalUnder, clipCount := k.clipCount, list := k.list,
      stat := k.stat, live := k.live, scaled := k.scaled, clipOpen := k.clipOpen, out := k.out, mk1 := k.mk1,
      mk2 := k.mk2 } = k) : x.Lawful := by
  obtain ⟨h1, h2, h3, h4, h5, h6, h7, h8, h9, h10, h11, h12, h13, h14, h15, h16⟩ := h ▸ hk
  exact ⟨h1, h2, h3, h4, h5, h6, h7, h8, h9, h10, h11, h12, h13, h14, h15, h16⟩

/-- Nor is what an active channel has fetched. -/
theorem Chan.Lawful.refetched {k x : Chan} (hk : k.Lawful) (ha : k.state.active = true)
    (h : { x with fifo := k.fifo, cursor := k.cursor, target := k.target } = k) : x.Lawful := by
  have hstate : x.state = k.state := (congrArg Chan.state h :)
  obtain ⟨h1, h2, h3, h4, h5, h6, h7, h8, h9, h10, h11, h12, h13, h14, -, h16⟩ := h ▸ hk
  refine ⟨h1, h2, h3, h4, h5, h6, h7, h8, h9, h10, h11, h12, h13, h14, fun e => ?_, h16⟩
  rw [← hstate] at ha
  rcases e with e | e <;> rw [e] at ha <;> cases ha

/-! ### Pass ends -/

/-- The drop at a pass end changes what is fetched only (R107). -/
theorem Work.dropPass_frame (c : ChanId) (w : Work) :
    { (w.dropPass c).ch with fifo := w.ch.fifo, cursor := w.ch.cursor, target := w.ch.target } = w.ch := by
  unfold Work.dropPass
  split
  · rfl
  · dsimp only
    split
    · rfl
    · split
      · rename_i cur _
        exact congrArg (fun k : Chan => { k with fifo := w.ch.fifo })
          (Chan.cursorPastPass_frame { w.ch with fifo := [] } cur)
      · rfl

theorem Work.refetchFrom_frame (c : ChanId) (j : EntryIx) (w : Work) :
    { (w.refetchFrom c j).ch with fifo := w.ch.fifo, cursor := w.ch.cursor, target := w.ch.target } = w.ch := rfl

/-- What is fetched plays no part in the course of play. -/
theorem Chan.Moves.refetched {n : Nat} {k x : Chan} (h : k.Moves n)
    (hx : { x with fifo := k.fifo, cursor := k.cursor, target := k.target } = k) : x.Moves n :=
  h.congr (congrArg Chan.gist hx :) (congrArg Chan.gait hx :) ((congrArg Chan.consec hx :).trans_le h.consec)

theorem Work.listEnd_ok {c : ChanId} {w : Work} (h : w.ch.Moves 2) (hjump : w.ch.jump = none)
    (hstop : w.ch.stop ≠ some .atPass) (carry : Nat) (afterLeave : Bool) : (w.listEnd c carry afterLeave).Ok c := by
  unfold Work.listEnd
  split
  · refine Work.ok_of_live ?_
    split
    · exact Work.enterEntry_live (h.refetched (w.refetchFrom_frame c 0)) hjump hstop 0 carry
    · exact Work.enterEntry_live h hjump hstop 0 carry
  · have hidle : (({ w with ch := { w.ch with pos := carry } } : Work).enterIdle c).Ok c :=
      Work.enterIdle_ok (h.toAlive.congr rfl h.consec)
    dsimp only
    split
    · exact (hidle.raise _).raise _
    · exact hidle.raise _

theorem Work.afterPass_ok {c : ChanId} {w : Work} (h : w.ch.Moves 2) (carry : Nat) : (w.afterPass c carry).Ok c := by
  rw [w.afterPass_eq]
  split
  · exact Work.Ok.raise (Work.enterIdle_ok (w := { w with ch := { w.ch with pos := carry } })
      (h.toAlive.congr rfl h.consec)) _
  · rename_i hstop
    split
    · exact Work.ok_of_live (Work.enterEntry_live (w := { w with ch := { w.ch with jump := none } })
        (h.congr rfl rfl h.consec) rfl hstop _ _)
    · rename_i hjump
      have hleft : ({ w.ch with advLatch := false } : Chan).Moves 2 := h.congr rfl rfl h.consec
      split_ifs
      · split
        · rename_i t _
          exact Work.ok_of_live (Work.enterEntry_live
            (w := Work.refetchFrom c t { w with ch := { w.ch with advLatch := false } })
            (hleft.refetched (Work.refetchFrom_frame c t _)) hjump hstop _ _)
        · exact Work.listEnd_ok (w := { w with ch := { w.ch with advLatch := false } }) hleft hjump hstop _ _
      · exact Work.ok_of_live (.inl (Work.withRecord_moves (w := { w with ch := w.ch.passStarted carry })
          (h.congr rfl rfl h.consec) _))
      · split
        · exact Work.ok_of_live (Work.enterEntry_live h hjump hstop _ _)
        · exact Work.listEnd_ok h hjump hstop _ _

/-- The passes-completed counter risen, and the consecutive count as the pass leaves it (R69, R109). -/
def Chan.passCounted (k : Chan) : Chan :=
  { k with pass := k.pass + 1#16, consec := if k.passStalled then k.consec else 0 }

theorem Work.passEnd_eq (c : ChanId) (length : Nat) (w : Work) :
    w.passEnd c length
      = ({ w.dropPass c with ch := (w.dropPass c).ch.passCounted } : Work).afterPass c (w.ch.pos - length * 65536) := rfl

theorem Chan.Moves.passCounted {n : Nat} {k : Chan} (h : k.Moves n) : k.passCounted.Moves n := by
  refine h.congr rfl rfl ?_
  unfold Chan.passCounted
  dsimp only
  split
  · exact h.consec
  · exact Nat.zero_le n

theorem Work.passEnd_ok {c : ChanId} {w : Work} (h : w.ch.Moves 2) (length : Nat) : (w.passEnd c length).Ok c := by
  have hdrop : (w.dropPass c).ch.Moves 2 := h.refetched (w.dropPass_frame c)
  rw [w.passEnd_eq]
  exact Work.afterPass_ok (w := { w.dropPass c with ch := (w.dropPass c).ch.passCounted }) hdrop.passCounted _

/-! ### Ticks -/

/-- The channel as the beginning of a tick leaves it, by what the tick does to the lane. -/
def Work.Begun (c : ChanId) (w : Work) : Phase → Prop
  | .idleWord | .parkWord => w.Ok c
  | .stopNow | .hold => w.ch.Live 2
  | .play => w.ch.Moves 2

theorem Chan.Live.moves {n : Nat} {k : Chan} (h : k.Live n) (hs : k.state ≠ .waiting) : k.Moves n :=
  h.elim id fun hw => absurd hw.state hs

/-- A channel that starts (R67). -/
theorem Chan.Lawful.started {k : Chan} (h : k.Lawful) (hs : k.state = .armed) :
    ({ k with
      startPending := false, startLatch := false, entry := 0, pass := 0#16, pos := 0, state := .running } : Chan).Moves 2
      ∧ k.jump = none ∧ k.stop = none := by
  have hstop : k.stop = none := h.going (by rw [hs]; nofun) (by rw [hs]; nofun)
  have hfault : k.fault = none := by
    rw [← Option.not_isSome_iff_eq_none, h.fault, hs]
    nofun
  have hjump : k.jump = none := by
    rw [← Option.not_isSome_iff_eq_none]
    intro e
    rcases h.jump e with e' | e' <;> rw [hs] at e' <;> cases e'
  have hconsec : k.consec ≤ 2 := h.consec_le (by rw [hs]; nofun)
  have hrequest : k.startRequest = false := eq_false_of_ne_true fun e => by
    have := h.startRequest e
    rw [hs] at this
    cases this
  exact ⟨⟨⟨hfault, rfl, rfl, h.empty, fun e => (h.point e).1, hconsec⟩, .inl ⟨rfl, hstop⟩, hrequest⟩, hjump, hstop⟩

theorem Work.beginTick_begun {c : ChanId} {w : Work} (h : w.Ok c) : w.beginTick.1.Begun c w.beginTick.2 := by
  unfold Work.beginTick
  cases hs : w.ch.state with
  | idle | arming | halted => exact h
  | armed =>
    dsimp only
    split
    · obtain ⟨hmoves, hjump, hstop⟩ := h.lawful.started hs
      have hlive := Work.enterEntry_live (w := Work.raise ⟨_, w.burst, w.raised⟩ .started) hmoves hjump
        (by rw [show Chan.stop _ = none from hstop]; nofun) 0 0
      dsimp only
      split
      · exact hlive
      · exact hlive.moves ‹_›
    · exact h
  | running => exact Work.startOfTick_moves (h.lawful.moves (.inl hs))
  | stopping =>
    have hmoves := Work.startOfTick_moves (h.lawful.moves (.inr hs))
    dsimp only
    split
    · exact .inl hmoves
    · exact hmoves
  | waiting =>
    have hwaits := Work.startOfTick_waits (h.lawful.waits hs)
    dsimp only
    split_ifs with hnow hgo hlist
    · exact .inr hwaits
    · refine Work.startEntry_moves ⟨hwaits.toAlive.congr rfl hwaits.consec, .inr ⟨rfl, ?_⟩, rfl⟩
      exact Option.isSome_of_eq_some hlist
    · refine Work.startEntry_moves ⟨hwaits.toAlive.congr rfl hwaits.consec, .inl ⟨rfl, ?_⟩, rfl⟩
      have hpass := hwaits.stop
      generalize w.startOfTick.ch.stop = o at hnow hlist hpass
      rcases o with _ | _ | _ | _
      · rfl
      all_goals contradiction
    · exact .inr hwaits

/-- The channel between the two parts of a tick, by what is left to be done. -/
def Work.Worded (c : ChanId) (w : Work) : Rest → Prop
  | .nothing => w.Ok c
  | .stop => w.ch.Live 2
  | .starve => w.ch.Moves 3 ∧ w.ch.consec = 3
  | .moved => w.ch.Moves 2

theorem Work.compute_frame (a b : Sample) (h : Int) (w : Work) :
    (w.compute a b h).ch.gist = w.ch.gist ∧ (w.compute a b h).ch.gait = w.ch.gait
      ∧ (w.compute a b h).ch.consec = w.ch.consec := by
  unfold Work.compute Work.clipTick
  dsimp only [Chan.place, Chan.countMarkers, Chan.compareMarkers]
  split_ifs <;> exact ⟨rfl, rfl, rfl⟩

/-- A stalled tick adds one to the count at most, and only where an episode opens (R108). -/
theorem Work.stall_spec (w : Work) :
    w.stall.ch.gist = w.ch.gist ∧ w.stall.ch.gait = w.ch.gait
      ∧ w.stall.ch.consec = if w.ch.underrun = true then w.ch.consec else min 3 (w.ch.consec + 1) := by
  unfold Work.stall
  dsimp only [Chan.countMarkers]
  split_ifs <;> exact ⟨rfl, rfl, rfl⟩

theorem Work.stall_worded {c : ChanId} {w : Work} (h : w.ch.Moves 2) :
    w.stall.Worded c (if !w.ch.underrun && decide (3 ≤ w.stall.ch.consec) then .starve else .nothing) := by
  obtain ⟨hgist, hgait, hconsec⟩ := w.stall_spec
  have hbound := h.consec
  by_cases hu : w.ch.underrun = true
  · rw [if_pos hu] at hconsec
    rw [hu]
    exact Work.ok_of_live (.inl (h.congr hgist hgait (hconsec.trans_le hbound)))
  · rw [if_neg hu] at hconsec
    rw [eq_false_of_ne_true hu]
    by_cases h3 : 3 ≤ w.stall.ch.consec
    · rw [if_pos (by simpa using h3)]
      exact ⟨h.congr hgist hgait (by omega), by omega⟩
    · rw [if_neg (by simpa using h3)]
      exact Work.ok_of_live (.inl (h.congr hgist hgait (by omega)))

theorem Work.tickWord_worded {c : ChanId} {w : Work} (hw : w.Ok c) (segs : Vector SegRec 256) (h : Int) :
    (w.tickWord segs h).1.Worded c (w.tickWord segs h).2 := by
  have hbegun := Work.beginTick_begun hw
  unfold Work.tickWord
  generalize w.beginTick = r at hbegun ⊢
  obtain ⟨w1, phase⟩ := r
  cases phase with
  | idleWord | parkWord =>
    have hok : w1.Ok c := hbegun
    exact ⟨hok.lawful.congr rfl, hok.kept⟩
  | stopNow =>
    have hlive : w1.ch.Live 2 := hbegun
    exact hlive.imp (fun h => h.congr rfl rfl h.consec) fun h =>
      ⟨h.toAlive.congr rfl h.consec, h.state, h.stop, h.jump, h.atStart, h.exit⟩
  | hold =>
    have hlive : w1.ch.Live 2 := hbegun
    exact ⟨hlive.lawful.congr rfl, .inl hlive.active⟩
  | play =>
    have hplay : w1.ch.Moves 2 := hbegun
    have hmoves : w1.consult.ch.Moves 2 := hplay.congr rfl rfl hplay.consec
    dsimp only
    split
    · obtain ⟨hgist, hgait, hconsec⟩ := w1.consult.compute_frame _ _ h
      exact hmoves.congr hgist hgait (hconsec.trans_le hmoves.consec)
    · exact Work.stall_worded hmoves

theorem Work.tickEnd_ok {c : ChanId} {w : Work} {r : Rest} (h : w.Worded c r) (segs : Vector SegRec 256) :
    (w.tickEnd segs c r).Ok c := by
  cases r with
  | nothing => exact h
  | stop => exact (Work.enterIdle_ok (Chan.Live.alive h)).raise _
  | starve => exact Work.halt_ok h.1.empty h.2
  | moved =>
    unfold Work.tickEnd
    dsimp only
    split
    · exact Work.passEnd_ok h _
    · exact Work.ok_of_live (.inl h)

end Sys2Proof.Machine
end

section
/-! ### Commands, trigger events, bursts and the clock keep the laws -/

namespace Sys2Proof.Machine

/-! ### Trigger events -/

theorem Work.startEvent_lawful {deaf : Bool} {w : Work} (h : w.ch.Lawful) : (w.startEvent deaf).ch.Lawful := by
  have hset : w.ch.state = .arming ∨ w.ch.state = .armed →
      ({ w.ch with startPending := true, startLatch := true } : Chan).Lawful := fun hs =>
    { h with startPending := fun _ => hs, startLatch := fun _ => rfl }
  unfold Work.startEvent
  split
  · exact h
  · split
    case h_1 hs =>
      split
      · exact h
      · exact hset (.inl hs)
    case h_2 hs =>
      split
      · exact h
      · exact hset (.inr hs)
    all_goals exact h

theorem Work.latchAdvance_lawful {w : Work} (h : w.ch.Lawful) (hp : w.ch.state.playing = true)
    (hr : w.ch.state = .waiting → w.ch.startRequest = true) : w.latchAdvance.ch.Lawful := by
  unfold Work.latchAdvance
  split
  · exact h
  · exact { h with advLatch := fun _ => hp, exit := fun hs _ => hr hs }

theorem Work.advanceEvent_lawful {w : Work} (h : w.ch.Lawful) : w.advanceEvent.ch.Lawful := by
  unfold Work.advanceEvent
  split
  case h_1 hs => exact Work.latchAdvance_lawful h (congrArg _ hs) (by rw [hs]; nofun)
  case h_2 hs => exact Work.latchAdvance_lawful h (congrArg _ hs) (by rw [hs]; nofun)
  case h_3 hs =>
    split
    · exact Work.latchAdvance_lawful h (congrArg _ hs) fun _ => ‹_›
    · exact { h with startRequest := fun _ => hs, exit := fun _ _ => rfl }
  all_goals exact h

theorem Work.updateEvent_lawful {w : Work} (h : w.ch.Lawful) : w.updateEvent.ch.Lawful := by
  unfold Work.updateEvent
  split
  · rename_i hc
    split
    · exact h
    · exact { h with updLatch := fun _ => (Bool.and_eq_true_iff.1 (Bool.and_eq_true_iff.1 hc).1).1 }
  · exact h

theorem ite_lawful {p : Prop} [Decidable p] {u v : Work} (hu : u.ch.Lawful) (hv : v.ch.Lawful) :
    (if p then u else v).ch.Lawful := by
  split
  · exact hu
  · exact hv

theorem Work.triggerEvent_lawful {deaf : Bool} {src : Source} {w : Work} (h : w.ch.Lawful) :
    (w.triggerEvent deaf src).ch.Lawful := by
  have hadvance : ∀ u : Work, u.ch.Lawful → (if u.ch.stat.advSrc = some src then u.advanceEvent else u).ch.Lawful :=
    fun u hu => ite_lawful (Work.advanceEvent_lawful hu) hu
  have hupdate : ∀ u : Work, u.ch.Lawful → (if u.ch.stat.updSrc = some src then u.updateEvent else u).ch.Lawful :=
    fun u hu => ite_lawful (Work.updateEvent_lawful hu) hu
  exact hupdate _ (hadvance _ (ite_lawful (Work.startEvent_lawful h) h))

theorem Work.triggerEvent_ok {c : ChanId} {deaf : Bool} {src : Source} {w : Work} (h : w.Ok c) :
    (w.triggerEvent deaf src).Ok c := by
  obtain ⟨hburst, hframe⟩ := w.triggerEvent_frame deaf src
  refine ⟨Work.triggerEvent_lawful h.lawful, ?_⟩
  rw [hburst, show (w.triggerEvent deaf src).ch.state = w.ch.state from (congrArg Chan.state hframe :)]
  exact h.kept

/-! ### Commands -/

/-- Nothing of an IDLE channel's record, course or latches is left for ARM to clear (R61). -/
theorem Work.arm_ok {c : ChanId} {w : Work} (h : w.ch.Lawful) (hs : w.ch.state = .idle) : (w.arm c).Ok c := by
  have hne : ∀ x : ChanState, x ≠ .idle → w.ch.state ≠ x := fun x hx e => hx (e.symm.trans hs)
  refine ⟨⟨?_, nofun, nofun, fun _ _ => h.going (hne _ nofun) (hne _ nofun), fun e => ?_, nofun, nofun, nofun, nofun, nofun,
    nofun, nofun, h.empty, fun e => ?_, ?_, ?_⟩, .inl rfl⟩
  · refine h.fault.trans ⟨fun e => absurd e (hne _ nofun), nofun⟩
  · rcases h.jump e with e' | e'
    · exact absurd e' (hne _ nofun)
    · exact absurd e' (hne _ nofun)
  · have hp := (h.point e).2
    rw [hs] at hp
    cases hp
  · rintro (e | e) <;> cases e
  · exact (if_neg fun e => nomatch e.1).mpr (Nat.zero_le 2)

theorem Work.disarm_ok {c : ChanId} {w : Work} (h : w.ch.Lawful) (hs : w.ch.state = .arming ∨ w.ch.state = .armed) :
    (w.disarm c).Ok c := by
  have hne : ∀ x : ChanState, x ≠ .arming → x ≠ .armed → w.ch.state ≠ x := fun x h1 h2 e => by
    rcases hs with e' | e' <;> rw [e] at e'
    exacts [h1 e', h2 e']
  refine ⟨⟨?_, nofun, nofun, fun _ _ => h.going (hne _ nofun nofun) (hne _ nofun nofun), fun e => ?_, nofun, nofun,
    fun e => absurd (h.startRequest e) (hne _ nofun nofun), nofun, nofun, nofun, nofun, h.empty, fun e => ?_,
    fun _ => ⟨rfl, rfl, rfl, rfl, rfl⟩, ?_⟩, .inr (dropBurst_noneKept c w.burst)⟩
  · exact h.fault.trans ⟨fun e => absurd e (hne _ nofun nofun), nofun⟩
  · rcases h.jump e with e' | e'
    · exact absurd e' (hne _ nofun nofun)
    · exact absurd e' (hne _ nofun nofun)
  · have hp := (h.point e).2
    rcases hs with e' | e' <;> rw [e'] at hp <;> cases hp
  · exact (if_neg fun e => nomatch e.1).mpr (h.consec_le (hne _ nofun nofun))

/-- A flush leaves the course of play as it is (R113). -/
theorem Work.flushFor_live {c : ChanId} {w : Work} {mode : StopPoint} (h : w.ch.Moves 2) : (w.flushFor c mode).Ok c := by
  unfold Work.flushFor
  split
  · exact Work.ok_of_live (.inl (Chan.Moves.congr h rfl rfl h.consec))
  · exact Work.ok_of_live (.inl h)

theorem Work.stopCommand_ok {c : ChanId} {w : Work} (h : w.Ok c) (mode : StopPoint) : (w.stopCommand c mode).Ok c := by
  unfold Work.stopCommand
  split
  case h_1 | h_2 => exact h
  case h_3 hs => exact Work.disarm_ok h.lawful (.inl hs)
  case h_4 hs => exact Work.disarm_ok h.lawful (.inr hs)
  case h_5 hs =>
    have hmoves := h.lawful.moves (.inl hs)
    exact Work.flushFor_live ⟨hmoves.toAlive.congr rfl hmoves.consec, .inr ⟨rfl, rfl⟩, hmoves.startRequest⟩
  case h_6 hs =>
    have hmoves := h.lawful.moves (.inr hs)
    refine Work.flushFor_live ?_
    split
    · exact ⟨hmoves.toAlive.congr rfl hmoves.consec, .inr ⟨hs, rfl⟩, hmoves.startRequest⟩
    · exact hmoves
  case h_7 hs =>
    have hwaits := h.lawful.waits hs
    exact Work.ok_of_live (.inr ⟨hwaits.toAlive.congr rfl hwaits.consec, hs, nofun, hwaits.jump, hwaits.atStart,
      hwaits.exit⟩)

/-- A JUMP whose target is stored leaves the rest to the pass end (R74, R110). -/
theorem Work.jumpRedirect_frame (c : ChanId) (j : EntryIx) (w : Work) :
    { (w.jumpRedirect c j).ch with fifo := w.ch.fifo, cursor := w.ch.cursor, target := w.ch.target } = w.ch := by
  unfold Work.jumpRedirect
  split
  · rfl
  · split <;> rfl

/-- A JUMP taken in WAITING ends the wait or waits on (R75). -/
theorem Work.jumpWaiting_waits {c : ChanId} {w : Work} (h : w.ch.Waits 2) (j : EntryIx) :
    (w.jumpWaiting c j).ch.Waits 2 := by
  have hwaits : ∀ x : Chan, x.gist = w.ch.gist → x.consec = w.ch.consec → x.state = w.ch.state → x.stop = w.ch.stop →
      x.jump = w.ch.jump → x.pos = 0 ∧ x.pass = 0#16 → (x.advLatch = true → x.startRequest = true) → x.Waits 2 :=
    fun x hgist hconsec hstate hstop hjump hstart hexit =>
      ⟨h.toAlive.congr hgist (hconsec.trans_le h.consec), hstate.trans h.state, hstop ▸ h.stop, hjump.trans h.jump,
        hstart, hexit⟩
  unfold Work.jumpWaiting
  dsimp only
  split_ifs
  · exact hwaits _ rfl rfl rfl rfl rfl ⟨rfl, rfl⟩ fun _ => rfl
  · exact hwaits _ rfl rfl rfl rfl rfl ⟨rfl, rfl⟩ fun _ => rfl
  · rename_i hadv
    exact hwaits _ rfl rfl rfl rfl rfl ⟨rfl, rfl⟩ fun e => absurd e hadv

theorem Work.jumpCommand_ok {c : ChanId} {w : Work} (h : w.Ok c) (hp : w.ch.state.playing = true) (j : EntryIx) :
    (w.jumpCommand c j).Ok c := by
  unfold Work.jumpCommand
  split
  · exact Work.ok_of_live (.inr (Work.jumpWaiting_waits (h.lawful.waits ‹_›) j))
  · have hmoves := (h.lawful.live hp).moves ‹_›
    refine Work.ok_of_live (.inl (Chan.Moves.refetched ?_ (Work.jumpRedirect_frame c j _)))
    exact hmoves.congr rfl rfl hmoves.consec

theorem Chan.writeStatic_lawful {k : Chan} (h : k.Lawful) (st : StaticParams) : (k.writeStatic st).Lawful := by
  unfold Chan.writeStatic
  dsimp only
  split_ifs <;> exact h.congr rfl

/-- A record with values staged is not empty, and has a point (R142). -/
theorem PendingRec.stage_spec (r given : PendingRec) (pt : ApplyPoint) :
    r.stage given pt = r ∨ (r.stage given pt).isEmpty = false ∧ (r.stage given pt).point = some pt := by
  unfold PendingRec.stage
  dsimp only
  split
  · exact .inl rfl
  · exact .inr ⟨eq_false_of_ne_true ‹_›, rfl⟩

theorem Chan.setLive_lawful {k : Chan} (h : k.Lawful) (given : PendingRec) (pt : ApplyPoint) :
    (k.setLive given pt).Lawful := by
  unfold Chan.setLive
  split
  · rename_i hp
    rcases k.staged.stage_spec given pt with e | ⟨hfull, hpoint⟩
    · rw [e]
      exact h
    · refine { h with empty := fun e => ?_, point := fun _ => ⟨Option.isSome_of_eq_some hpoint, hp⟩ }
      rw [show (k.staged.stage given pt).isEmpty = true from e] at hfull
      cases hfull
  · exact h.congr rfl

theorem Chan.joinGroup_lawful {k : Chan} (h : k.Lawful) : k.joinGroup.Lawful := by
  unfold Chan.joinGroup
  split
  · rename_i hc
    obtain ⟨hp, hfull⟩ := Bool.and_eq_true_iff.1 hc
    have hfull : k.staged.isEmpty = false := by simpa using hfull
    refine { h with empty := fun e => ?_, point := fun _ => h.point hfull }
    rw [show k.staged.isEmpty = true from e] at hfull
    cases hfull
  · exact h

theorem Chan.startCommand_lawful {k : Chan} (h : k.Lawful) : k.startCommand.Lawful := by
  unfold Chan.startCommand
  split
  · rename_i hs
    have hstate : k.state = .arming ∨ k.state = .armed := by
      cases e : k.state with
      | arming => exact .inl rfl
      | armed => exact .inr rfl
      | idle | running | waiting | stopping | halted =>
        rw [e] at hs
        cases hs
    exact { h with startPending := fun _ => hstate, startLatch := fun _ => rfl }
  · exact h

/-- A HALTED channel that goes to IDLE keeps what it is flushed of (R77). -/
theorem Chan.clearFault_lawful {k : Chan} (h : k.Lawful) (hs : k.state = .halted) : k.clearFault.Lawful := by
  have hne : ∀ x : ChanState, x ≠ .halted → k.state ≠ x := fun x hx e => hx (e.symm.trans hs)
  have hplay : k.state.playing = false := congrArg _ hs
  refine ⟨⟨nofun, nofun⟩, nofun, nofun, fun _ _ => h.going (hne _ nofun) (hne _ nofun), fun e => ?_, fun e => ?_,
    h.startLatch, fun e => absurd (h.startRequest e) (hne _ nofun), fun e => ?_, fun e => ?_, nofun, nofun, h.empty,
    fun e => ?_, fun _ => h.flushed (.inr hs), ?_⟩
  · rcases h.jump e with e' | e'
    · exact absurd e' (hne _ nofun)
    · exact absurd e' (hne _ nofun)
  · rcases h.startPending e with e' | e'
    · exact absurd e' (hne _ nofun)
    · exact absurd e' (hne _ nofun)
  · rw [h.advLatch e] at hplay
    cases hplay
  · rw [h.updLatch e] at hplay
    cases hplay
  · rw [(h.point e).2] at hplay
    cases hplay
  · exact (if_neg fun e => nomatch e.1).mpr (Nat.zero_le 2)

/-- The end of prefill (R62). -/
theorem Chan.armed_lawful {k : Chan} (h : k.Lawful) (hs : k.state = .arming) :
    ({ k with state := .armed } : Chan).Lawful := by
  have hne : ∀ x : ChanState, x ≠ .arming → k.state ≠ x := fun x hx e => hx (e.symm.trans hs)
  have hplay : k.state.playing = false := congrArg _ hs
  refine ⟨h.fault.trans ⟨fun e => absurd e (hne _ nofun), nofun⟩, nofun, nofun,
    fun _ _ => h.going (hne _ nofun) (hne _ nofun), fun e => ?_, fun _ => .inr rfl, h.startLatch,
    fun e => absurd (h.startRequest e) (hne _ nofun), fun e => ?_, fun e => ?_, nofun, nofun, h.empty,
    fun e => ?_, ?_, ?_⟩
  · rcases h.jump e with e' | e'
    · exact absurd e' (hne _ nofun)
    · exact absurd e' (hne _ nofun)
  · rw [h.advLatch e] at hplay
    cases hplay
  · rw [h.updLatch e] at hplay
    cases hplay
  · rw [(h.point e).2] at hplay
    cases hplay
  · rintro (e | e) <;> cases e
  · exact (if_neg fun e => nomatch e.1).mpr (h.consec_le (hne _ nofun))

/-- Whatever an event outside the ticks makes of a channel, it keeps the laws. -/
theorem ChanDeed.ok {s : State} {c : ChanId} {w : Work} (h : ChanDeed s c w) (hs : (s.work c).Ok c) : w.Ok c := by
  have hk : (s.chan c).Lawful := hs.lawful
  have hsame : ∀ x : Chan, x.Lawful → x.state = (s.chan c).state → Work.Ok c { s.work c with ch := x } :=
    fun x hx hstate => ⟨hx, hs.kept.imp_left fun e => (congrArg ChanState.active hstate).trans e⟩
  cases h with
  | trigger deaf src => exact Work.triggerEvent_ok hs
  | arm p hidle hcheck => exact Work.arm_ok hk hidle
  | disarm hstate => exact Work.disarm_ok hk hstate
  | stop mode => exact Work.stopCommand_ok hs mode
  | jump target j hcheck => exact Work.jumpCommand_ok hs (Chan.jumpCheck_playing hcheck) j
  | static st hstate =>
    refine hsame _ (Chan.writeStatic_lawful hk st) ?_
    unfold Chan.writeStatic
    split_ifs <;> rfl
  | live given pt hgiven =>
    refine hsame _ (Chan.setLive_lawful hk given pt) ?_
    unfold Chan.setLive
    split <;> rfl
  | join =>
    refine hsame _ (Chan.joinGroup_lawful hk) ?_
    unfold Chan.joinGroup
    split <;> rfl
  | start =>
    refine hsame _ (Chan.startCommand_lawful hk) ?_
    unfold Chan.startCommand
    split <;> rfl
  | clearFault hstate =>
    refine ⟨Chan.clearFault_lawful hk hstate, .inr (hs.kept.resolve_left ?_)⟩
    rw [show (s.work c).ch.state = .halted from hstate]
    nofun
  | unit u m => cases u <;> exact hsame _ (hk.congr rfl) rfl
  | armed hstate => exact ⟨Chan.armed_lawful hk hstate, .inl rfl⟩

/-- The loss of the clock keeps the laws of each channel (R80). -/
theorem Work.loseClock_ok {c : ChanId} {w : Work} (h : w.Ok c) : (w.loseClock c).Ok c := by
  have hhalt : w.ch.state.playing = true → (w.halt c .clockLost).Ok c := fun hp =>
    Work.halt_ok h.lawful.empty (h.lawful.alive hp).consec
  have hplace : ∀ x : Chan, x.Lawful → x.state = w.ch.state → ∀ v, Work.Ok c { w with ch := x.place v } :=
    fun x hx hstate v => ⟨hx.congr rfl, h.kept.imp_left fun e => (congrArg ChanState.active hstate).trans e⟩
  have hpending : ({ w.ch with startPending := false, startLatch := false } : Chan).Lawful :=
    { h.lawful with startPending := nofun, startLatch := nofun }
  unfold Work.loseClock
  split
  case h_1 hs | h_2 hs | h_3 hs => exact hhalt (congrArg _ hs)
  case h_4 | h_5 => exact hplace _ hpending rfl _
  case h_6 => exact hplace _ h.lawful rfl _
  case h_7 => exact h

/-! ### The part -/

/-- The channel laws of the part. -/
structure State.Ok (s : State) : Prop where
  kept : s.KeptLaw
  lawful : ∀ c, (s.chan c).Lawful

theorem State.Ok.work {s : State} (h : s.Ok) (c : ChanId) : (s.work c).Ok c := by
  refine ⟨h.lawful c, ?_⟩
  by_cases ha : (s.chan c).state.active = true
  · exact .inl ha
  · exact .inr fun b hb hreq => eq_false_of_ne_true fun hkeep => ha (h.kept b hb c hreq hkeep)

/-- Channels as they are, and no burst newly to be kept. -/
theorem State.Ok.same {s t : State} (h : s.Ok) (hchan : ∀ c, t.chan c = s.chan c)
    (hburst : ∀ b, t.burst = some b → b.keep = true → s.burst = some b) : t.Ok := by
  refine ⟨fun b hb c hreq hkeep => ?_, fun c => hchan c ▸ h.lawful c⟩
  rw [hchan]
  exact h.kept b (hburst b hb hkeep) c hreq hkeep

/-- An event of channel c that keeps its laws keeps those of the part. -/
theorem State.Ok.of_work {s t : State} {c : ChanId} {w : Work} (h : s.Ok) (hw : w.Ok c)
    (hkept : w.burst = s.burst ∨ ∃ b, s.burst = some b ∧ w.burst = some { b with keep := false })
    (hchan : ∀ d, t.chan d = if d = c then w.ch else s.chan d) (hburst : t.burst = w.burst) : t.Ok := by
  refine ⟨fun b hb d hreq hkeep => ?_, fun d => ?_⟩
  · rw [hburst] at hb
    rw [hchan]
    split
    · rename_i e
      subst e
      refine hw.kept.resolve_right fun hnone => ?_
      rw [hnone b hb hreq] at hkeep
      cases hkeep
    · refine h.kept b ?_ d hreq hkeep
      rcases hkept with e | ⟨x, -, e⟩
      · exact e.symm.trans hb
      · rw [← Option.some.inj (e.symm.trans hb)] at hkeep
        cases hkeep
  · rw [hchan]
    split
    · exact hw.lawful
    · exact h.lawful d

theorem State.Ok.putWork {s : State} {c : ChanId} {w : Work} (h : s.Ok) (hw : w.Ok c)
    (hkept : w.burst = s.burst ∨ ∃ b, s.burst = some b ∧ w.burst = some { b with keep := false }) :
    (s.putWork c w).Ok := by
  obtain ⟨hchan, hburst, -, -⟩ := s.putWork_spec c w
  exact h.of_work hw hkept hchan hburst

/-- A grant to a Fetcher is of a channel with a cursor, so of an active one (R104, R113). -/
theorem State.Ok.grantFetch {s : State} (h : s.Ok) (c : ChanId) : (s.grantFetch c).Ok := by
  unfold State.grantFetch
  dsimp only
  split
  · exact h
  · rename_i cur hcur
    split
    · exact h
    · rename_i e _
      have hactive : (s.chan c).state.active = true := by
        by_contra hn
        have hflushed := (h.lawful c).flushed
        have hrest : (s.chan c).state = .idle ∨ (s.chan c).state = .halted := by
          revert hn
          cases (s.chan c).state <;> simp [ChanState.active]
        rw [(hflushed hrest).2.1] at hcur
        cases hcur
      generalize hm : (s.chan c).moveCursor cur _ _ = k
      have hframe : { k with cursor := (s.chan c).cursor, target := (s.chan c).target } = s.chan c :=
        hm ▸ Chan.moveCursor_frame _ _ _ _
      have hk : k.Lawful := (h.lawful c).refetched hactive
        ((congrArg (fun x : Chan => { x with fifo := (s.chan c).fifo }) hframe :))
      have hchan : ∀ d, (s.setChan c k).chan d = if d = c then k else s.chan d := fun d => s.setChan_chan c d k
      refine ⟨fun b hb d hreq _ => ?_, fun d => ?_⟩
      · obtain rfl : c = d := by
          have hb := Option.some.inj hb
          rw [← hb] at hreq
          exact Requester.fetcher.inj hreq
        have hc : (s.setChan c k).chan c = k := (hchan c).trans (if_pos rfl)
        exact ((congrArg (fun x : Chan => x.state.active) hc).trans
          (congrArg (fun x : Chan => x.state.active) hframe :)).trans hactive
      · have hd : ((s.setChan c k).chan d).Lawful := by
          rw [hchan]
          split
          · exact hk
          · exact h.lawful d
        exact hd

theorem State.Ok.grantLoad {s : State} (h : s.Ok) (p : Port) : (s.grantLoad p).Ok := by
  have hburst : ∀ b : Burst, b.requester = .loadUnit p → State.Ok { s with burst := some b } := fun b hreq => by
    refine ⟨fun x hx c hfetch _ => ?_, h.lawful⟩
    rw [← Option.some.inj hx, hreq] at hfetch
    cases hfetch
  unfold State.grantLoad
  dsimp only
  split
  · split
    · exact hburst _ rfl
    · exact h
  · split
    · exact hburst _ rfl
    · exact h

theorem State.Ok.arbitrate {s : State} (h : s.Ok) : s.arbitrate.Ok := by
  have harb : ∀ (u : State) (a : Arbiter), u.Ok → State.Ok { u with arb := a } := fun u a hu =>
    hu.same (fun _ => rfl) fun _ hb _ => hb
  unfold State.arbitrate
  split
  · exact h
  · split
    · exact h
    · refine harb _ _ ?_
      split
      · exact h.grantFetch _
      · exact h.grantLoad _

/-- The causes that the first part has raised are delivered before the second. -/
theorem Work.Worded.delivered {c : ChanId} {w : Work} {r : Rest} (h : w.Worded c r) :
    ({ w with raised := [] } : Work).Worded c r := by
  cases r with
  | nothing =>
    have hok : w.Ok c := h
    exact ⟨hok.lawful, hok.kept⟩
  | stop | starve | moved => exact h

theorem State.Ok.ticked {s : State} (h : s.Ok) (c : ChanId) : (s.ticked c).Ok := by
  obtain ⟨hchan, hburst, -⟩ := s.ticked_spec c
  have hword := Work.tickWord_worded (h.work c) s.segs (s.contribution (partner c))
  have hend : (s.tickEndOf c).Ok c := Work.tickEnd_ok hword.delivered s.segs
  have hsteady : (s.work c).Steady (s.tickEndOf c) := by
    have hfirst : (s.work c).Steady { s.tickWordOf c with raised := [] } :=
      (Work.tickWord_steady s.segs (s.contribution (partner c)) (s.work c)).trans (.of_ch rfl rfl rfl)
    exact hfirst.trans (Work.tickEnd_steady s.segs c (s.tickRestOf c) _)
  exact h.of_work hend hsteady.burst hchan hburst

theorem State.Ok.loseAll {s : State} (h : s.Ok) : s.loseAll.Ok := by
  unfold State.loseAll
  generalize List.finRange 8 = l
  induction l generalizing s with
  | nil => exact h
  | cons c r ih => exact ih (h.putWork (Work.loseClock_ok (h.work c)) (Work.loseClock_steady c _).burst)

/-- The items of a burst that is not to be kept are not taken; one that is to be kept is an active channel's (R105, R113). -/
theorem State.Ok.fetchTaken {s : State} (h : s.Ok) {c : ChanId} {b : Burst} (hb : s.burst = some b)
    (hreq : b.requester = .fetcher c) : (s.fetchTaken c b).Ok := by
  obtain ⟨hchan, hchans, -, -, hrest⟩ := fetchTaken_appended s c b
  obtain ⟨_, _, _, e⟩ := s.endRead_eq b
  have hread : ∀ d, (s.endRead b).chan d = s.chan d := fun d => (congrArg (State.chan · d) e).trans rfl
  have hburst : (s.fetchTaken c b).burst = none :=
    (congrArg State.burst hrest :).trans (congrArg State.burst e)
  refine ⟨?_, fun d => ?_⟩
  · unfold State.KeptLaw
    rw [hburst]
    nofun
  by_cases hd : d = c
  · subst hd
    rw [hchan, hread]
    cases hkeep : b.keep with
    | true => exact (h.lawful d).refetched (h.kept b hb d hreq hkeep) rfl
    | false =>
      unfold fetchItems
      rw [hkeep, List.append_nil]
      exact h.lawful d
  · rw [hchans d hd, hread]
    exact h.lawful d

theorem Chan.reset_lawful : Chan.reset.Lawful :=
  (Chan.lawful_iff _).2 ⟨Chan.reset_courseLaw, rfl, fun _ => ⟨rfl, rfl, rfl, rfl, rfl⟩, Chan.reset_underrunLaw⟩

/-- What a ChanDeed leaves of list, static parameters and burst; SET-STATIC is for inactive channels. -/
theorem ChanDeed.burst {s : State} {c : ChanId} {w : Work} (h : ChanDeed s c w) :
    w.burst = s.burst ∨ ∃ b, s.burst = some b ∧ w.burst = some { b with keep := false } := by
  cases h with
  | trigger deaf src => exact (Work.triggerEvent_steady deaf src (s.work c)).burst
  | arm => exact ((s.work c).arm_steady c).burst
  | disarm => exact ((s.work c).disarm_steady c).burst
  | stop mode => exact ((s.work c).stopCommand_steady c mode).burst
  | jump target j => exact ((s.work c).jumpCommand_steady c j).burst
  | static | live | join | start | clearFault | unit | armed => exact .inl rfl

/-- Every deed keeps the channel laws. -/
theorem Deed.ok {q : Prop} {s t : State} (h : Deed q s t) (hs : s.Ok) : t.Ok := by
  cases h with
  | aside hchans hports hmonitor hticks harb hburst =>
    exact hs.same (fun c => congrArg (fun v : Vector Chan 8 => v.get c) hchans) hburst
  | port | raise | clock => exact hs.same (fun _ => rfl) fun _ hb _ => hb
  | work c hdeed => exact hs.putWork (hdeed.ok (hs.work c)) hdeed.burst
  | list c l =>
    have hw : Work.Ok c { s.work c with ch := { s.chan c with list := l } } :=
      ⟨(hs.lawful c).congr rfl, (hs.work c).kept⟩
    exact hs.of_work hw (.inl rfl) (fun d => s.setChan_chan c d _) rfl
  | lose =>
    have hjudged : State.Ok (State.raiseBoth
        { s with monitor := s.monitor.still .lost, ticks := Vector.replicate 8 .noTick } .device .clockLost) :=
      hs.same (fun _ => rfl) fun _ hb _ => hb
    exact hjudged.loseAll
  | tick c =>
    rw [s.tickOne_ticked]
    exact (hs.ticked c).arbitrate
  | grant => exact hs.arbitrate
  | fetched c b hb hreq => exact hs.fetchTaken hb hreq
  | reset hmoved hreset =>
    cases hreset
    refine ⟨nofun, fun c => ?_⟩
    exact Eq.subst (motive := Chan.Lawful) (State.reset_chan c).symm Chan.reset_lawful

end Sys2Proof.Machine
end

section
/-! ## The position in the walk (R60, R68, R74, R89, R90) -/

namespace Sys2Proof.Machine

/-! ### Where a channel stands -/

/-- Every entry names a segment of at least 16 samples (R17, R46). -/
def Chan.Long (segs : Vector SegRec 256) (k : Chan) : Prop := ∀ e ∈ k.list, 16 ≤ ((segs.get e.seg).length).getD 0

/-- The list is closed under its next fields, and the current entry and a stored jump target are entries of it (R60, R74). -/
structure Chan.OnList (segs : Vector SegRec 256) (k : Chan) : Prop where
  long : k.Long segs
  closed : ∀ e ∈ k.list, ∀ x, e.next = some x → x.val < k.list.length
  entry : k.entry.val < k.list.length
  jump : ∀ j, k.jump = some j → j.val < k.list.length

/-- The position is within the current pass (R90). -/
def Chan.InPass (segs : Vector SegRec 256) (k : Chan) : Prop := k.pos < lengthOf segs k k.entry * 65536

/-- The walk law of one channel, with what it rests on. -/
def Chan.Walk (segs : Vector SegRec 256) (k : Chan) : Prop :=
  k.state.active = true → k.OnList segs ∧ (k.state.playing = true → k.InPass segs)

/-- The fields that the place in the walk is made of. -/
def Chan.stand (k : Chan) : List Entry × EntryIx × Option EntryIx × Nat := (k.list, k.entry, k.jump, k.pos)

theorem lengthOf_congr {segs segs' : Vector SegRec 256} (hs : ∀ i, (segs'.get i).length = (segs.get i).length)
    {k x : Chan} (hl : x.list = k.list) (j : EntryIx) : lengthOf segs' x j = lengthOf segs k j := by
  unfold lengthOf Chan.entryAt
  rw [hl]
  cases k.list[j.val]? with
  | none => rfl
  | some e => exact congrArg (fun o : Option Nat => o.getD 0) (hs e.seg)

theorem Chan.Long.congr {segs segs' : Vector SegRec 256} (hs : ∀ i, (segs'.get i).length = (segs.get i).length)
    {k x : Chan} (h : k.Long segs) (hl : x.list = k.list) : x.Long segs' := by
  intro e he
  rw [hs]
  exact h e (hl ▸ he)

theorem stand_eq {k x : Chan} (h : x.stand = k.stand) :
    x.list = k.list ∧ x.entry = k.entry ∧ x.jump = k.jump ∧ x.pos = k.pos := by
  simpa only [Chan.stand, Prod.mk.injEq] using h

section
variable {segs : Vector SegRec 256}

theorem Chan.OnList.congr {k x : Chan} (h : k.OnList segs) (hx : x.stand = k.stand) : x.OnList segs := by
  obtain ⟨hl, he, hj, -⟩ := stand_eq hx
  refine ⟨h.long.congr (fun _ => rfl) hl, ?_, ?_, ?_⟩
  · rw [hl]
    exact h.closed
  · rw [hl, he]
    exact h.entry
  · rw [hl, hj]
    exact h.jump

theorem Chan.InPass.congr {k x : Chan} (h : k.InPass segs) (hx : x.stand = k.stand) : x.InPass segs := by
  obtain ⟨hl, he, -, hp⟩ := stand_eq hx
  unfold Chan.InPass
  rw [he, hp, lengthOf_congr (fun _ => rfl) hl]
  exact h

theorem Chan.Walk.congr {k x : Chan} (h : k.Walk segs) (hx : x.stand = k.stand)
    (ha : x.state.active = true → k.state.active = true) (hp : x.state.playing = true → k.state.playing = true) :
    x.Walk segs := fun e => ⟨(h (ha e)).1.congr hx, fun e' => ((h (ha e)).2 (hp e')).congr hx⟩

theorem Chan.Walk.inactive {k : Chan} (h : k.state.active = false) : k.Walk segs := fun e => by
  rw [h] at e
  cases e

theorem Chan.Walk.of_inPass {k : Chan} (h : k.OnList segs) (hp : k.InPass segs) : k.Walk segs := fun _ => ⟨h, fun _ => hp⟩

/-- Every pass of the list is longer than any advance of the position (R89, R138). -/
theorem Chan.OnList.le_lengthOf {k : Chan} (h : k.OnList segs) {j : EntryIx} (hj : j.val < k.list.length) :
    16 ≤ lengthOf segs k j := by
  unfold lengthOf Chan.entryAt
  rw [List.getElem?_eq_getElem hj]
  exact h.long _ (List.getElem_mem hj)

/-- The walk stays in the list (R44). -/
theorem Chan.OnList.successor_lt {k : Chan} (h : k.OnList segs) {j : EntryIx} (hj : successor k.list k.entry = some j) :
    j.val < k.list.length := by
  have hentry := List.getElem?_eq_getElem h.entry
  cases hnext : (k.list[k.entry.val]'h.entry).next with
  | some x =>
    rw [successor_of_next hentry hnext] at hj
    obtain rfl := Option.some.inj hj
    exact h.closed _ (List.getElem_mem h.entry) _ hnext
  | none =>
    rw [successor_of_none hentry hnext] at hj
    split_ifs at hj with h64 hlen
    obtain rfl := Option.some.inj hj
    exact hlen

/-! ### Entries entered, passes ended -/

theorem applied_stand (k : Chan) (due : Bool) : (applied k due).1.stand = k.stand := by
  have hframe := applied_frame k due
  exact (congrArg Chan.stand hframe :)

theorem Work.startOfTick_stand (w : Work) : w.startOfTick.ch.stand = w.ch.stand := by
  rw [w.startOfTick_eq]
  exact applied_stand _ _

theorem Work.startEntry_stand (w : Work) : w.startEntry.ch.stand = w.ch.stand := by
  rw [w.startEntry_eq]
  exact applied_stand _ _

/-- An entry of the list at a position that a tick can carry into it. -/
theorem Chan.OnList.at {k : Chan} (h : k.OnList segs) {j : EntryIx} (hj : j.val < k.list.length) {n : Nat}
    (hn : n < 1048576) {x : Chan} (hx : x.stand = (k.list, j, k.jump, n)) : x.OnList segs ∧ x.InPass segs := by
  have hk : ({ k with entry := j, pos := n } : Chan).OnList segs := ⟨h.long, h.closed, hj, h.jump⟩
  have hpass : ({ k with entry := j, pos := n } : Chan).InPass segs := by
    have hlen := hk.le_lengthOf hj
    unfold Chan.InPass
    dsimp only at hlen ⊢
    omega
  exact ⟨hk.congr hx, hpass.congr hx⟩

theorem Work.enterEntry_walk {w : Work} (h : w.ch.OnList segs) {j : EntryIx} (hj : j.val < w.ch.list.length) {carry : Nat}
    (hc : carry < 1048576) : (w.enterEntry j carry).ch.OnList segs ∧ (w.enterEntry j carry).ch.InPass segs := by
  rw [w.enterEntry_eq]
  split_ifs
  · exact h.at hj hc (Work.startEntry_stand _)
  · exact h.at hj (by decide : 0 < 1048576) (Work.startEntry_stand _)
  · exact h.at hj (by decide : 0 < 1048576) rfl

theorem Work.enterIdle_inactive (c : ChanId) (w : Work) : (w.enterIdle c).ch.state.active = false :=
  congrArg ChanState.active (w.enterIdle_state c)

theorem Work.listEnd_walk {c : ChanId} {w : Work} (h : w.ch.OnList segs) {carry : Nat} (hc : carry < 1048576)
    (afterLeave : Bool) : (w.listEnd c carry afterLeave).ch.Walk segs := by
  have hfirst : (0 : EntryIx).val < w.ch.list.length := Nat.lt_of_le_of_lt (Nat.zero_le _) h.entry
  unfold Work.listEnd
  split
  · split
    · obtain ⟨hlist, hpass⟩ := Work.enterEntry_walk (w := w.refetchFrom c 0) (h.congr rfl) hfirst hc
      exact .of_inPass hlist hpass
    · obtain ⟨hlist, hpass⟩ := Work.enterEntry_walk h hfirst hc
      exact .of_inPass hlist hpass
  · dsimp only
    split
    · exact .inactive (Work.enterIdle_inactive c _)
    · exact .inactive (Work.enterIdle_inactive c _)

theorem Work.afterPass_walk {c : ChanId} {w : Work} (h : w.ch.OnList segs) {carry : Nat} (hc : carry < 1048576) :
    (w.afterPass c carry).ch.Walk segs := by
  have henter : ∀ (v : Work) (j : EntryIx), v.ch.OnList segs → j.val < v.ch.list.length →
      (v.enterEntry j carry).ch.Walk segs := fun v j hv hj => by
    obtain ⟨hlist, hpass⟩ := Work.enterEntry_walk hv hj hc
    exact .of_inPass hlist hpass
  rw [w.afterPass_eq]
  split
  · exact .inactive (Work.enterIdle_inactive c _)
  · split
    · rename_i t hjump
      exact henter { w with ch := { w.ch with jump := none } } t ⟨h.long, h.closed, h.entry, nofun⟩ (h.jump t hjump)
    · have hleft : ({ w.ch with advLatch := false } : Chan).OnList segs := h.congr rfl
      split_ifs
      · split
        · rename_i t ht
          exact henter (Work.refetchFrom c t { w with ch := { w.ch with advLatch := false } }) t (hleft.congr rfl)
            (h.successor_lt ht)
        · exact Work.listEnd_walk (w := { w with ch := { w.ch with advLatch := false } }) hleft hc true
      · obtain ⟨hlist, hpass⟩ := h.at h.entry hc (x := (applied (w.ch.passStarted carry)
          (decide (w.ch.staged.point = some .pass))).1) (applied_stand _ _)
        exact .of_inPass hlist hpass
      · split
        · rename_i t ht
          exact henter w t h (h.successor_lt ht)
        · exact Work.listEnd_walk h hc false

theorem Work.passEnd_walk {c : ChanId} {w : Work} (h : w.ch.OnList segs) {length : Nat}
    (hc : w.ch.pos - length * 65536 < 1048576) : (w.passEnd c length).ch.Walk segs := by
  have hdrop : (w.dropPass c).ch.OnList segs := by
    have hframe := w.dropPass_frame c
    exact h.congr (congrArg Chan.stand hframe :)
  rw [w.passEnd_eq]
  exact Work.afterPass_walk (w := { w.dropPass c with ch := (w.dropPass c).ch.passCounted }) (hdrop.congr rfl) hc

/-! ### Ticks -/

/-- A channel that the beginning of a tick leaves in play is in its pass. -/
theorem Work.beginTick_walk {w : Work} (h : w.ch.Walk segs) :
    match w.beginTick.2 with
    | .idleWord | .parkWord => w.beginTick.1.ch.Walk segs
    | .stopNow => True
    | .hold | .play => w.beginTick.1.ch.OnList segs ∧ w.beginTick.1.ch.InPass segs := by
  have hplay : w.ch.state.playing = true → w.ch.OnList segs ∧ w.ch.InPass segs := fun hp => by
    obtain ⟨hlist, hpass⟩ := h (ChanState.active_of_playing hp)
    exact ⟨hlist, hpass hp⟩
  have hstart : w.ch.state.playing = true → w.startOfTick.ch.OnList segs ∧ w.startOfTick.ch.InPass segs := fun hp =>
    ⟨(hplay hp).1.congr w.startOfTick_stand, (hplay hp).2.congr w.startOfTick_stand⟩
  unfold Work.beginTick
  cases hs : w.ch.state with
  | idle | arming | halted => exact h
  | armed =>
    obtain ⟨hlist, -⟩ := h (congrArg _ hs)
    have hzero : ∀ v : Work, v.ch.stand = (w.ch.list, 0, w.ch.jump, 0) →
        (v.enterEntry 0 0).ch.OnList segs ∧ (v.enterEntry 0 0).ch.InPass segs := fun v hv => by
      have hfirst : (0 : EntryIx).val < w.ch.list.length := Nat.lt_of_le_of_lt (Nat.zero_le _) hlist.entry
      obtain ⟨hv, -⟩ := hlist.at hfirst (by decide : 0 < 1048576) hv
      exact Work.enterEntry_walk hv (Nat.lt_of_le_of_lt (Nat.zero_le _) hv.entry) (by decide)
    dsimp only
    split_ifs
    · exact hzero _ rfl
    · exact hzero _ rfl
    · exact h
  | running => exact hstart (congrArg _ hs)
  | stopping =>
    dsimp only
    split_ifs
    · trivial
    · exact hstart (congrArg _ hs)
  | waiting =>
    obtain ⟨hlist, hpass⟩ := hstart (congrArg _ hs)
    dsimp only
    split_ifs
    · trivial
    · exact hlist.at hlist.entry (by decide : 0 < 1048576) (Work.startEntry_stand _)
    · exact hlist.at hlist.entry (by decide : 0 < 1048576) (Work.startEntry_stand _)
    · exact ⟨hlist, hpass⟩

/-- A computed tick advances the position by the step and moves nothing else of the place (R89). -/
theorem Work.compute_stand (a b : Sample) (h : Int) (w : Work) :
    (w.compute a b h).ch.stand = (w.ch.list, w.ch.entry, w.ch.jump, w.ch.pos + w.ch.live.step) := by
  unfold Work.compute Work.clipTick
  dsimp only [Chan.place, Chan.countMarkers, Chan.compareMarkers]
  split_ifs <;> rfl

theorem Work.stall_stand (w : Work) : w.stall.ch.stand = w.ch.stand := by
  unfold Work.stall
  dsimp only [Chan.countMarkers]
  split_ifs <;> rfl

/-- Between the two parts of a tick, the place by what is left to be done. -/
def Work.WalkedTo (segs : Vector SegRec 256) (w : Work) : Rest → Prop
  | .nothing => w.ch.Walk segs
  | .stop | .starve => True
  | .moved => w.ch.OnList segs ∧ w.ch.pos < lengthOf segs w.ch w.ch.entry * 65536 + 1048576

theorem Work.tickWord_walk {w : Work} (hw : w.ch.Walk segs) (hsteps : w.ch.StepsBounded) (h : Int) :
    (w.tickWord segs h).1.WalkedTo segs (w.tickWord segs h).2 := by
  have hbegun := Work.beginTick_walk hw
  obtain ⟨hstep, -⟩ := w.beginTick_records.steps hsteps
  unfold Work.tickWord
  generalize w.beginTick = r at hbegun hstep ⊢
  obtain ⟨w1, phase⟩ := r
  cases phase with
  | idleWord | parkWord => exact Chan.Walk.congr hbegun rfl id id
  | stopNow => trivial
  | hold =>
    obtain ⟨hlist, hpass⟩ := hbegun
    exact .of_inPass (hlist.congr rfl) (hpass.congr rfl)
  | play =>
    obtain ⟨hlist, hpass⟩ := hbegun
    dsimp only
    split
    · rename_i a b _
      have hstand : (w1.consult.compute a b h).ch.stand
          = ({ w1.ch with pos := w1.ch.pos + w1.ch.live.step } : Chan).stand := w1.consult.compute_stand a b h
      obtain ⟨hl, he, -, hp⟩ := stand_eq hstand
      have hmoved : ({ w1.ch with pos := w1.ch.pos + w1.ch.live.step } : Chan).OnList segs :=
        ⟨hlist.long, hlist.closed, hlist.entry, hlist.jump⟩
      refine ⟨hmoved.congr hstand, ?_⟩
      rw [he, hp, lengthOf_congr (fun _ => rfl) hl]
      exact Nat.add_lt_add_of_lt_of_le hpass hstep
    · split_ifs
      · trivial
      · exact .of_inPass (hlist.congr (Work.stall_stand _)) (hpass.congr (Work.stall_stand _))

theorem Work.tickEnd_walk {c : ChanId} {w : Work} {r : Rest} (h : w.WalkedTo segs r) :
    (w.tickEnd segs c r).ch.Walk segs := by
  cases r with
  | nothing => exact h
  | stop => exact .inactive (Work.enterIdle_inactive c _)
  | starve => exact .inactive (congrArg ChanState.active (Work.halt_state c _ _))
  | moved =>
    obtain ⟨hlist, hpos⟩ := h
    unfold Work.tickEnd
    dsimp only
    split
    · exact Work.passEnd_walk hlist (by omega)
    · exact .of_inPass hlist (Nat.lt_of_not_le ‹_›)

end

end Sys2Proof.Machine
end

section
/-! ### Events that leave the segments alone keep the position in the walk -/

namespace Sys2Proof.Machine

section
variable {segs : Vector SegRec 256}

/-- ARM checks that the list has entries and that their next fields name entries of it (R60). -/
theorem armFailure_closed {s : State} {p : Port} {c : ChanId} (h : s.armFailure p c = none) :
    (s.chan c).list ≠ [] ∧ ∀ e ∈ (s.chan c).list, ∀ x, e.next = some x → x.val < (s.chan c).list.length := by
  unfold State.armFailure at h
  dsimp only at h
  split at h
  · cases h
  · rename_i hlist
    refine ⟨hlist, ?_⟩
    split at h
    · cases h
    · split at h
      · cases h
      · split at h
        · cases h
        · rename_i hnone
          have hlowest := lowestRule_firstIndex (Entry.unresolved_iff (s.chan c).list.length) (s.chan c).list
          rw [hnone] at hlowest
          exact fun e he x hx => Nat.lt_of_not_le fun hle => hlowest e he ⟨x, hx, hle⟩

theorem Chan.jumpCheck_lt {k : Chan} {target : Byte} {j : EntryIx} (h : k.jumpCheck target = .ok j) :
    j.val < k.list.length := by
  unfold Chan.jumpCheck at h
  split_ifs at h with _ _ hlen h64
  obtain rfl := Except.ok.inj h
  exact Nat.lt_of_not_le hlen

/-- What STOP makes of the place of a channel (R72). -/
theorem Work.stopCommand_walk {c : ChanId} {w : Work} (h : w.ch.Walk segs) (mode : StopPoint) :
    (w.stopCommand c mode).ch.Walk segs := by
  have hflush : ∀ v : Work, v.ch.Walk segs → (v.flushFor c mode).ch.Walk segs := fun v hv => by
    unfold Work.flushFor
    split
    · exact hv.congr rfl id id
    · exact hv
  unfold Work.stopCommand
  split
  case h_1 | h_2 => exact h
  case h_3 | h_4 => exact .inactive rfl
  case h_5 hs => exact hflush _ (h.congr rfl (fun _ => congrArg _ hs) fun _ => congrArg _ hs)
  case h_6 hs =>
    refine hflush _ ?_
    split
    · exact h.congr rfl id id
    · exact h
  case h_7 => exact h.congr rfl id id

/-- What JUMP makes of the place of a channel in play (R74, R75). -/
theorem Work.jumpCommand_walk {c : ChanId} {w : Work} (h : w.ch.Walk segs) (hp : w.ch.state.playing = true) {j : EntryIx}
    (hj : j.val < w.ch.list.length) : (w.jumpCommand c j).ch.Walk segs := by
  obtain ⟨hlist, hpass⟩ := h (ChanState.active_of_playing hp)
  unfold Work.jumpCommand
  split
  · have hstand : (w.jumpWaiting c j).ch.stand = (w.ch.list, j, w.ch.jump, 0) := by
      unfold Work.jumpWaiting
      dsimp only
      split_ifs <;> rfl
    obtain ⟨hlist', hpass'⟩ := hlist.at hj (by decide : 0 < 1048576) hstand
    exact .of_inPass hlist' hpass'
  · have hstored : ({ w.ch with jump := some j } : Chan).OnList segs :=
      ⟨hlist.long, hlist.closed, hlist.entry, fun x hx => Option.some.inj hx ▸ hj⟩
    have hframe := Work.jumpRedirect_frame c j { w with ch := { w.ch with jump := some j } }
    have hstand : (Work.jumpRedirect c j { w with ch := { w.ch with jump := some j } }).ch.stand
        = ({ w.ch with jump := some j } : Chan).stand := (congrArg Chan.stand hframe :)
    refine .of_inPass (hstored.congr hstand) ?_
    exact Chan.InPass.congr (k := { w.ch with jump := some j }) (hpass hp) hstand

theorem ChanDeed.walk {s : State} {c : ChanId} {w : Work} (h : ChanDeed s c w) (hs : (s.chan c).Walk segs)
    (hlong : (s.chan c).Long segs) (hidle : (s.chan c).state = .idle → (s.chan c).jump = none) : w.ch.Walk segs := by
  cases h with
  | trigger deaf src =>
    obtain ⟨-, hframe⟩ := Work.triggerEvent_frame deaf src (s.work c)
    have hstate : ((s.work c).triggerEvent deaf src).ch.state = (s.chan c).state := (congrArg Chan.state hframe :)
    exact hs.congr (congrArg Chan.stand hframe :) (hstate ▸ id) (hstate ▸ id)
  | arm p hstate hcheck =>
    obtain ⟨hlist, hclosed⟩ := armFailure_closed hcheck
    refine fun _ => ⟨⟨hlong, hclosed, List.length_pos_iff.2 hlist, fun j hj => ?_⟩, nofun⟩
    rw [show ((s.work c).arm c).ch.jump = (s.chan c).jump from rfl, hidle hstate] at hj
    cases hj
  | disarm => exact .inactive rfl
  | stop mode => exact Work.stopCommand_walk hs mode
  | jump target j hcheck => exact Work.jumpCommand_walk hs (Chan.jumpCheck_playing hcheck) (Chan.jumpCheck_lt hcheck)
  | static st hstate =>
    refine .inactive (Eq.trans (congrArg ChanState.active ?_) hstate)
    unfold Chan.writeStatic
    split_ifs <;> rfl
  | live given pt =>
    unfold Chan.setLive
    split
    · exact hs.congr rfl id id
    · exact hs.congr rfl id id
  | join =>
    unfold Chan.joinGroup
    split
    · exact hs.congr rfl id id
    · exact hs
  | start =>
    unfold Chan.startCommand
    split
    · exact hs.congr rfl id id
    · exact hs
  | clearFault => exact .inactive rfl
  | unit u m => cases u <;> exact hs.congr rfl id id
  | armed hstate => exact hs.congr rfl (fun _ => congrArg _ hstate) nofun

/-- No event outside the ticks takes a step beyond its bound (R138, R140). -/
theorem ChanDeed.steps {s : State} {c : ChanId} {w : Work} (h : ChanDeed s c w) (hs : (s.chan c).StepsBounded) :
    w.ch.StepsBounded := by
  have hsame : ∀ x : Chan, x.live = (s.chan c).live → x.staged = (s.chan c).staged → x.StepsBounded := fun x hl hst => by
    unfold Chan.StepsBounded
    rw [hl, hst]
    exact hs
  cases h with
  | trigger deaf src => exact (Work.triggerEvent_records deaf src (s.work c)).steps hs
  | stop mode =>
    unfold Work.stopCommand Work.flushFor
    split
    case h_5 => split_ifs <;> exact hs
    case h_6 => split_ifs <;> exact hs
    all_goals exact hs
  | jump target j =>
    unfold Work.jumpCommand
    split
    · unfold Work.jumpWaiting
      dsimp only
      split_ifs <;> exact hs
    · have hframe := Work.jumpRedirect_frame c j { s.work c with ch := { s.chan c with jump := some j } }
      exact hsame _ (congrArg Chan.live hframe :) (congrArg Chan.staged hframe :)
  | static st =>
    unfold Chan.writeStatic
    split_ifs <;> exact hs
  | live given pt hgiven =>
    have hbound : ∀ n ∈ given.step, n ≤ 1048576 := fun n hn => (hgiven n hn).2
    obtain ⟨hlive, hstaged⟩ := hs
    unfold Chan.setLive
    split
    · refine ⟨hlive, fun n hn => ?_⟩
      unfold PendingRec.stage at hn
      dsimp only at hn
      split at hn
      · exact hstaged n hn
      · rcases Option.or_eq_some_iff.1 hn with h | ⟨-, h⟩
        · exact hbound n h
        · exact hstaged n h
    · refine ⟨?_, hstaged⟩
      change given.step.getD (s.chan c).live.step ≤ 1048576
      cases hstep : given.step with
      | none => exact hlive
      | some n => exact hbound n hstep
  | join =>
    unfold Chan.joinGroup
    split <;> exact hs
  | start =>
    unfold Chan.startCommand
    split <;> exact hs
  | unit u m => cases u <;> exact hs
  | arm | disarm | clearFault | armed => exact hs

theorem ChanDeed.list {s : State} {c : ChanId} {w : Work} (h : ChanDeed s c w) : w.ch.list = (s.chan c).list := by
  cases h with
  | trigger deaf src => exact (Work.triggerEvent_steady deaf src (s.work c)).list
  | arm => exact ((s.work c).arm_steady c).list
  | disarm => exact ((s.work c).disarm_steady c).list
  | stop mode => exact ((s.work c).stopCommand_steady c mode).list
  | jump target j => exact ((s.work c).jumpCommand_steady c j).list
  | static st =>
    unfold Chan.writeStatic
    split_ifs <;> rfl
  | live given pt =>
    unfold Chan.setLive
    split <;> rfl
  | join =>
    unfold Chan.joinGroup
    split <;> rfl
  | start =>
    unfold Chan.startCommand
    split <;> rfl
  | clearFault | armed => rfl
  | unit u m => cases u <;> rfl

/-- The loss of the clock moves no channel (R80). -/
theorem Work.loseClock_walk {c : ChanId} {w : Work} (h : w.ch.Walk segs) : (w.loseClock c).ch.Walk segs := by
  unfold Work.loseClock
  split
  case h_1 | h_2 | h_3 => exact .inactive (congrArg ChanState.active (Work.halt_state c _ _))
  case h_4 | h_5 | h_6 => exact h.congr rfl id id
  case h_7 => exact h

end

/-! ### The part -/

/-- The walk laws of the part, with the bounds they rest on. -/
structure State.Walks (s : State) : Prop where
  walk : ∀ c, (s.chan c).Walk s.segs
  long : ∀ c, (s.chan c).Long s.segs
  steps : ∀ c, (s.chan c).StepsBounded

theorem Chan.Walk.relabel {segs segs' : Vector SegRec 256} (hs : ∀ i, (segs'.get i).length = (segs.get i).length)
    {k : Chan} (h : k.Walk segs) : k.Walk segs' := fun ha => by
  obtain ⟨hlist, hpass⟩ := h ha
  refine ⟨⟨hlist.long.congr hs rfl, hlist.closed, hlist.entry, hlist.jump⟩, fun hp => ?_⟩
  unfold Chan.InPass
  rw [lengthOf_congr hs rfl]
  exact hpass hp

/-- What an event leaves of each channel's place, list and steps, and of the lengths. -/
theorem State.Walks.same {s t : State} (h : s.Walks) (hs : ∀ i, (t.seg i).length = (s.seg i).length)
    (hc : ∀ c, (t.chan c).state = (s.chan c).state ∧ (t.chan c).stand = (s.chan c).stand
      ∧ (t.chan c).live = (s.chan c).live ∧ (t.chan c).staged = (s.chan c).staged) : t.Walks := by
  refine ⟨fun c => ?_, fun c => ?_, fun c => ?_⟩ <;> obtain ⟨hstate, hstand, hlive, hstaged⟩ := hc c
  · exact ((h.walk c).congr hstand (hstate ▸ id) (hstate ▸ id)).relabel hs
  · exact (h.long c).congr hs (stand_eq hstand).1
  · unfold Chan.StepsBounded
    rw [hlive, hstaged]
    exact h.steps c

theorem State.Walks.of_chan {s t : State} (h : s.Walks) (hs : ∀ i, (t.seg i).length = (s.seg i).length)
    (hc : ∀ c, t.chan c = s.chan c) : t.Walks := h.same hs fun c => by rw [hc]; exact ⟨rfl, rfl, rfl, rfl⟩

theorem State.Walks.of_work {s t : State} {c : ChanId} {w : Work} (h : s.Walks) (hs : t.segs = s.segs)
    (hwalk : w.ch.Walk s.segs) (hlist : w.ch.list = (s.chan c).list) (hsteps : w.ch.StepsBounded)
    (hchan : ∀ d, t.chan d = if d = c then w.ch else s.chan d) : t.Walks := by
  refine ⟨fun d => ?_, fun d => ?_, fun d => ?_⟩ <;> rw [hchan]
  · rw [hs]
    split
    · exact hwalk
    · exact h.walk d
  · rw [hs]
    split
    · exact (h.long c).congr (fun _ => rfl) hlist
    · exact h.long d
  · split
    · exact hsteps
    · exact h.steps d

theorem State.Walks.putWork {s : State} {c : ChanId} {w : Work} (h : s.Walks) (hwalk : w.ch.Walk s.segs)
    (hlist : w.ch.list = (s.chan c).list) (hsteps : w.ch.StepsBounded) : (s.putWork c w).Walks := by
  obtain ⟨hchan, -, -, hrest⟩ := s.putWork_spec c w
  exact h.of_work (congrArg State.segs hrest :) hwalk hlist hsteps hchan

theorem State.Walks.arbitrate {s : State} (h : s.Walks) : s.arbitrate.Walks := by
  refine h.same (fun i => ?_) fun c => ?_
  · unfold State.seg
    rw [State.arbitrate_segs]
  · have hframe := s.arbitrate_chan c
    exact ⟨(congrArg Chan.state hframe :), (congrArg Chan.stand hframe :), (congrArg Chan.live hframe :),
      (congrArg Chan.staged hframe :)⟩

theorem State.Walks.ticked {s : State} (h : s.Walks) (c : ChanId) : (s.ticked c).Walks := by
  obtain ⟨hchan, -, -, -, -, hrest⟩ := s.ticked_spec c
  have hword := Work.tickWord_walk (w := s.work c) (h.walk c) (h.steps c) (s.contribution (partner c))
  have hwalk : (s.tickEndOf c).ch.Walk s.segs := by
    refine Work.tickEnd_walk (w := { s.tickWordOf c with raised := [] }) ?_
    unfold State.tickRestOf State.tickWordOf
    generalize (s.work c).tickWord s.segs (s.contribution (partner c)) = r at hword ⊢
    obtain ⟨w, rest⟩ := r
    cases rest <;> exact hword
  have hlist : (s.tickEndOf c).ch.list = (s.chan c).list :=
    ((Work.tickEnd_steady s.segs c (s.tickRestOf c) { s.tickWordOf c with raised := [] }).list).trans
      (Work.tickWord_steady s.segs (s.contribution (partner c)) (s.work c)).list
  have hsteps : (s.tickEndOf c).ch.StepsBounded :=
    (Work.tickEnd_records s.segs c (s.tickRestOf c) { s.tickWordOf c with raised := [] }).steps
      ((Work.tickWord_records s.segs (s.contribution (partner c)) (s.work c)).steps (h.steps c))
  exact h.of_work (congrArg State.segs hrest :) hwalk hlist hsteps hchan

theorem State.Walks.loseAll {s : State} (h : s.Walks) : s.loseAll.Walks := by
  unfold State.loseAll
  generalize List.finRange 8 = l
  induction l generalizing s with
  | nil => exact h
  | cons c r ih =>
    exact ih (h.putWork (Work.loseClock_walk (h.walk c)) (Work.loseClock_steady c (s.work c)).list
      ((Work.loseClock_records c (s.work c)).steps (h.steps c)))

theorem State.Walks.fetchTaken {s : State} (h : s.Walks) (c : ChanId) (b : Burst) : (s.fetchTaken c b).Walks := by
  obtain ⟨hchan, hchans, hseg, -, -⟩ := fetchTaken_appended s c b
  obtain ⟨_, _, _, e⟩ := s.endRead_eq b
  have hread : ∀ d, (s.endRead b).chan d = s.chan d := fun d => (congrArg (State.chan · d) e).trans rfl
  refine h.same (fun i => ?_) fun d => ?_
  · rw [hseg i, show (s.endRead b).seg i = s.seg i from (congrArg (State.seg · i) e).trans rfl]
    split <;> rfl
  · by_cases hd : d = c
    · subst hd
      rw [hchan, hread]
      exact ⟨rfl, rfl, rfl, rfl⟩
    · rw [hchans d hd, hread]
      exact ⟨rfl, rfl, rfl, rfl⟩

/-- A deed that leaves the segments alone keeps the position in the walk. -/
theorem Deed.walks {s t : State} (h : Deed True s t) (hok : s.Ok) (hs : s.Walks) : t.Walks := by
  cases h with
  | aside hchans hports hmonitor hticks harb hburst hlength =>
    exact hs.of_chan (hlength trivial) fun c => congrArg (fun v : Vector Chan 8 => v.get c) hchans
  | port | raise | clock => exact hs.of_chan (fun _ => rfl) fun _ => rfl
  | work c hdeed =>
    refine hs.putWork (hdeed.walk (hs.walk c) (hs.long c) fun hidle => ?_) hdeed.list (hdeed.steps (hs.steps c))
    rw [← Option.not_isSome_iff_eq_none]
    intro e
    rcases (hok.lawful c).jump e with e' | e' <;> rw [hidle] at e' <;> cases e'
  | list c l hmoved => exact absurd trivial hmoved
  | lose =>
    have hjudged : State.Walks (State.raiseBoth
        { s with monitor := s.monitor.still .lost, ticks := Vector.replicate 8 .noTick } .device .clockLost) :=
      hs.of_chan (fun _ => rfl) fun _ => rfl
    exact hjudged.loseAll
  | tick c =>
    rw [s.tickOne_ticked]
    exact (hs.ticked c).arbitrate
  | grant => exact hs.arbitrate
  | fetched c b => exact hs.fetchTaken c b
  | reset hmoved => exact absurd trivial hmoved

theorem Deeds.walks {s t : State} (h : Deeds True s t) (hok : s.Ok) (hs : s.Walks) : t.Walks :=
  (h.keep (P := fun u => u.Ok ∧ u.Walks) (fun _ _ hdeed hu => ⟨hdeed.ok hu.1, hdeed.walks hu.1 hu.2⟩) ⟨hok, hs⟩).2

end Sys2Proof.Machine
end

section
/-! ### Commands that load, delete and list segments move no channel (R30, R46, R47, R64) -/

namespace Sys2Proof.Machine

/-- READY or DOOMED: the states of a segment that entries can name (R46). -/
def SegRec.Held (r : SegRec) : Prop := r.state = .ready ∨ r.state = .doomed

/-- A segment keeps its length for as long as entries can name it, unless it is freed; and no FREE segment is taken. -/
def SegRec.Stays (r x : SegRec) : Prop :=
  (r.Held → x.Held ∧ x.length = r.length ∨ x.state = .free) ∧ (r.state = .free → x.state = .free)

theorem SegRec.Stays.of_eq {r x : SegRec} (hs : x.state = r.state) (hl : x.length = r.length) : r.Stays x := by
  unfold SegRec.Stays SegRec.Held
  rw [hs, hl]
  exact ⟨fun h => .inl ⟨h, rfl⟩, id⟩

theorem SegRec.Stays.freed (r : SegRec) : r.Stays .freed := ⟨fun _ => .inr rfl, fun _ => rfl⟩

theorem SegRec.Stays.of_loading {r : SegRec} (h : r.state = .loading) (x : SegRec) : r.Stays x := by
  unfold SegRec.Stays SegRec.Held
  rw [h]
  refine ⟨fun e => ?_, nofun⟩
  rcases e with e | e <;> cases e

theorem SegRec.Stays.trans {r x y : SegRec} (h : r.Stays x) (k : x.Stays y) : r.Stays y := by
  refine ⟨fun hr => ?_, k.2 ∘ h.2⟩
  rcases h.1 hr with ⟨hx, hl⟩ | hx
  · exact (k.1 hx).imp_left fun e => ⟨e.1, e.2.trans hl⟩
  · exact .inr (k.2 hx)

/-- Every channel that is active afterwards was so, at the place where it is, and every segment stays or is freed. -/
structure Unmoved (s t : State) : Prop where
  chan : ∀ c, (t.chan c).state.active = true →
    (t.chan c).state = (s.chan c).state ∧ (t.chan c).stand = (s.chan c).stand
  seg : ∀ i, (s.seg i).Stays (t.seg i)

namespace Unmoved

variable {s t u : State}

theorem trans (h : Unmoved s u) (k : Unmoved u t) : Unmoved s t := by
  refine ⟨fun c hc => ?_, fun i => (h.seg i).trans (k.seg i)⟩
  obtain ⟨hstate, hstand⟩ := k.chan c hc
  obtain ⟨hstate', hstand'⟩ := h.chan c (hstate ▸ hc)
  exact ⟨hstate.trans hstate', hstand.trans hstand'⟩

theorem of_segs (hc : ∀ c, t.chan c = s.chan c) (hs : ∀ i, (s.seg i).Stays (t.seg i)) : Unmoved s t :=
  ⟨fun c _ => by rw [hc]; exact ⟨rfl, rfl⟩, hs⟩

/-- What changes neither channels nor segments. -/
theorem of_eq (hc : t.chans = s.chans) (hs : t.segs = s.segs) : Unmoved s t := by
  refine of_segs (fun c => congrArg (fun v : Vector Chan 8 => v.get c) hc) fun i => ?_
  rw [show t.seg i = s.seg i from congrArg (fun v : Vector SegRec 256 => v.get i) hs]
  exact .of_eq rfl rfl

theorem refl (s : State) : Unmoved s s := of_eq rfl rfl

theorem ite {p : Prop} [Decidable p] (h : Unmoved s t) (k : Unmoved s u) : Unmoved s (if p then t else u) := by
  split
  · exact h
  · exact k

theorem answered (h : Unmoved s u) (p : Port) (e : Byte) (st : Status) (pl : List Byte) :
    Unmoved s (u.respond p e st pl) := h.trans (of_eq rfl rfl)

theorem settled (h : Unmoved s u) : Unmoved s u.settleCancelled := by
  obtain ⟨_, _, e⟩ := u.settleCancelled_eq
  rw [e]
  exact h.trans (of_eq rfl rfl)

/-- A frame on a port: before its command, only the ports change. -/
theorem onPort {p : Port} {n : Nat} {act : State → State}
    (h : ∀ ps : PerPort PortRec, Unmoved { s with ports := ps } (act { s with ports := ps })) :
    Unmoved s (Sys2Proof.Machine.onPort p n s act) := by
  obtain ⟨ps, e | e⟩ := onPort_cases p n s act <;> rw [e]
  · exact of_eq rfl rfl
  · have hports : Unmoved s { s with ports := ps } := of_eq rfl rfl
    exact hports.trans (h ps)

end Unmoved

theorem setSeg_unmoved (s : State) (i : SegId) {r : SegRec} (h : (s.seg i).Stays r) : Unmoved s (s.setSeg i r) := by
  refine .of_segs (fun _ => rfl) fun j => ?_
  rw [State.setSeg_seg]
  split
  · rename_i e
    exact e ▸ h
  · exact .of_eq rfl rfl

theorem freeSegment_unmoved (s : State) (i : SegId) : Unmoved s (s.freeSegment i) := by
  refine .of_segs (fun c => congrArg (fun v : Vector Chan 8 => v.get c) (s.freeSegment_chans i)) fun j => ?_
  rw [State.freeSegment_seg]
  split
  · exact .freed _
  · exact .of_eq rfl rfl

theorem releaseSegment_unmoved (s : State) (i : SegId) : Unmoved s (s.releaseSegment i) := by
  have hraise : Unmoved s (s.raiseFreed i (s.seg i).owner) := by
    unfold State.raiseFreed
    split
    · exact .of_eq rfl rfl
    · exact .refl s
  exact .ite (hraise.trans (freeSegment_unmoved _ i)) (setSeg_unmoved s i (.of_eq rfl rfl))

theorem releaseAll_unmoved (s : State) (l : List Entry) : Unmoved s (s.releaseAll l).1 := by
  induction l generalizing s with
  | nil => exact .refl s
  | cons e r ih => exact (releaseSegment_unmoved s e.seg).trans (ih _)

theorem endLoad_unmoved (s : State) (p : Port) : Unmoved s (s.endLoad p) := by
  have hclosed : ∀ u : State, Unmoved u (u.setLoad p (u.loadUnit p).closed) := fun u => .of_eq rfl rfl
  refine .trans ?_ (hclosed _)
  split
  · exact freeSegment_unmoved s _
  · exact .refl s

theorem abortOpen_unmoved (s : State) (p : Port) : Unmoved s (s.abortOpen p) := by
  have hpass : Unmoved s (if s.drainRequest p then s.setPassOver p 0 else s) := .ite (.of_eq rfl rfl) (.refl s)
  unfold State.abortOpen
  dsimp only
  split
  · exact hpass.trans (endLoad_unmoved _ p)
  · exact hpass.trans (.of_eq rfl rfl)

theorem resetOnePort_unmoved (s : State) (p : Port) : Unmoved s (s.resetOnePort p) := by
  have hload : ∀ u : State, Unmoved u (u.resetLoad p) := fun u => by
    have hdrop : Unmoved u
        ((u.dropReadBurst p).setLoad p { (u.dropReadBurst p).loadUnit p with readback := none }) := by
      rw [u.dropReadBurst_eq p]
      exact .of_eq rfl rfl
    exact .ite (hdrop.trans (abortOpen_unmoved _ p)) hdrop
  have hclaims : ∀ cl, Unmoved s { s with claims := cl } := fun _ => .of_eq rfl rfl
  exact ((hclaims _).trans (hload _)).trans (.of_eq rfl rfl)

theorem arbitrate_unmoved (s : State) : Unmoved s s.arbitrate := by
  refine ⟨fun c _ => ?_, fun i => ?_⟩
  · have hframe := s.arbitrate_chan c
    exact ⟨(congrArg Chan.state hframe :), (congrArg Chan.stand hframe :)⟩
  · rw [show s.arbitrate.seg i = s.seg i from congrArg (fun v : Vector SegRec 256 => v.get i) s.arbitrate_segs]
    exact .of_eq rfl rfl

theorem drainDone_unmoved (s : State) (p : Port) (b : Burst) : Unmoved s (s.drainDone p b) := by
  have hwritten : Unmoved s (s.drained p b) := .of_eq rfl rfl
  rw [s.drainDone_eq]
  exact .trans (.ite (hwritten.trans (endLoad_unmoved _ p)) hwritten) (arbitrate_unmoved _)

/-- The segment that CLOSE-LOAD makes READY was LOADING (R21, R26). -/
theorem closeOn_unmoved {s : State} {p : Port} {i : SegId} (h : (s.seg i).state = .loading) :
    Unmoved s (s.closeOn p i).1 := by
  have hready : ∀ r, Unmoved s (s.setSeg i r) := fun r => setSeg_unmoved s i (.of_loading h r)
  have hgiven : ∀ (u : State) (l : List PageNo), Unmoved u (u.givePages l) := fun u l => by
    obtain ⟨_, _, _, e⟩ := u.givePages_eq l
    rw [e]
    exact .of_eq rfl rfl
  unfold State.closeOn
  dsimp only
  split_ifs
  · exact (hready _).trans (.of_eq rfl rfl)
  · exact (freeSegment_unmoved s i).trans (.of_eq rfl rfl)
  · exact (hready _).trans ((hgiven _ _).trans (.of_eq rfl rfl))

theorem deleteOn_unmoved {s t : State} {p : Port} {i : SegId} (h : s.deleteOn p i = .ok t) : Unmoved s t := by
  unfold State.deleteOn at h
  dsimp only at h
  split at h
  · cases h
  · split at h <;> cases h
  · split at h <;> cases h
    exact .refl s
  · rename_i hready
    split at h
    · split at h <;> cases h
      · exact freeSegment_unmoved s i
      · exact setSeg_unmoved s i ⟨fun _ => .inl ⟨.inr rfl, rfl⟩, fun e => by rw [hready] at e; cases e⟩
    · cases h

/-- The list of a channel that is not active changes (R64). -/
theorem setList_unmoved {s : State} {c : ChanId} (h : (s.chan c).state.active = false) (l : List Entry) :
    Unmoved s (s.setChan c { s.chan c with list := l }) := by
  refine ⟨fun d hd => ?_, fun _ => .of_eq rfl rfl⟩
  rw [State.setChan_chan] at hd ⊢
  split at hd
  · rw [show _ = false from h] at hd
    cases hd
  · rename_i hne
    rw [if_neg hne]
    exact ⟨rfl, rfl⟩

theorem putOn_unmoved {s : State} {p : Port} {c : ChanId} {n : Nat} {a : EntryArg} {e : Entry}
    (h : s.putCheck p c n a = .ok e) : Unmoved s (s.putOn c n e) := by
  have hput : ∀ l, Unmoved s ((s.setChan c { s.chan c with list := l }).bindSegment e.seg) := fun l =>
    (setList_unmoved (putCheck_inactive h) l).trans (setSeg_unmoved _ _ (.of_eq rfl rfl))
  unfold State.putOn
  dsimp only
  split
  · exact hput _
  · exact (hput _).trans (releaseSegment_unmoved _ _)

theorem trimOn_unmoved {s : State} {c : ChanId} {m : Nat} (h : s.trimCheck c m = none) : Unmoved s (s.trimOn c m).1 :=
  (setList_unmoved (trimCheck_inactive h) _).trans (releaseAll_unmoved _ _)

/-- A segment that READY or DOOMED entries name before and after keeps its length; OPEN-LOAD takes a FREE one (R21). -/
theorem openOn_unmoved {s : State} {p : Port} {i : SegId} {n : Nat} {vis : Byte} {v : Visibility}
    (h : s.openCheck p i n vis = .ok v) (label : Option Half) :
    (∀ c, (s.openOn p i n v label).chan c = s.chan c)
      ∧ ∀ j, (s.seg j).Held → ((s.openOn p i n v label).seg j).length = (s.seg j).length := by
  obtain ⟨-, hfree, -⟩ := openCheck_ok h
  obtain ⟨_, e⟩ := s.takePages_eq (pagesFor n)
  unfold State.openOn
  dsimp only
  rw [e]
  refine ⟨fun _ => rfl, fun j hj => ?_⟩
  by_cases hji : j = i
  · rw [hji] at hj
    unfold SegRec.Held at hj
    rw [hfree] at hj
    rcases hj with hj | hj <;> cases hj
  · exact congrArg SegRec.length (State.setSeg_seg_ne _ _ hji)

/-- A channel that is active after a command on segments and lists stands where it stood, and a segment that entries can name
before and after has kept its length. -/
def Stood (s t : State) : Prop :=
  (∀ c, (t.chan c).state.active = true → (t.chan c).state = (s.chan c).state ∧ (t.chan c).stand = (s.chan c).stand)
    ∧ ∀ i, (s.seg i).Held → (t.seg i).Held → (t.seg i).length = (s.seg i).length

theorem Unmoved.stood {s t : State} (h : Unmoved s t) : Stood s t := by
  refine ⟨h.chan, fun i hs ht => ?_⟩
  rcases (h.seg i).1 hs with ⟨-, hl⟩ | hfree
  · exact hl
  · unfold SegRec.Held at ht
    rw [hfree] at ht
    rcases ht with ht | ht <;> cases ht

/-- OPEN-LOAD (R21). -/
theorem execOpenLoad_stood {p : Port} {seg : Byte} {declared : Long} {vis : Byte} {label : Option Half} {s t : State}
    (h : execOpenLoad p seg declared vis label s = .next t) : Stood s t := by
  cases h
  obtain ⟨ps, e | e⟩ := onPort_cases p (frameLength (.openLoad p seg declared vis label)) s _ <;> rw [e]
  · exact (Unmoved.of_eq rfl rfl).stood
  · split
    · exact (Unmoved.of_eq rfl rfl).stood
    · rename_i hcheck
      obtain ⟨hchan, hseg⟩ := openOn_unmoved hcheck label
      refine ⟨fun c _ => ?_, fun i hi _ => hseg i hi⟩
      exact ⟨congrArg Chan.state (hchan c), congrArg Chan.stand (hchan c)⟩

/-- The commands that can change a count or a segment's state leave every active channel where it stands. -/
theorem exec_stood {i : Instr} {s t : State} (hi : recounts i = true) (hs : s.LoadLaw) (h : exec i s = .next t) :
    Stood s t := by
  have hrespond : ∀ (u : State) p e st pl, Unmoved u (u.respond p e st pl) := fun _ _ _ _ _ => .of_eq rfl rfl
  cases i
  case openLoad p seg declared vis label => exact execOpenLoad_stood h
  case deviceReset =>
    cases h
    refine ⟨fun c hc => absurd hc (reset_inactive c), fun i _ hi => ?_⟩
    rcases hi with e | e <;> cases (congrArg SegRec.state (State.reset_seg i)).symm.trans e
  all_goals refine Unmoved.stood ?_
  case closeLoad p =>
    cases h
    refine .onPort fun ps => ?_
    dsimp only
    split
    · exact hrespond _ _ _ _ _
    · rename_i seg hseg
      refine .ite (hrespond _ _ _ _ _) (.ite (hrespond _ _ _ _ _) (.answered (closeOn_unmoved ?_) _ _ _ _))
      have hlaw := hs.2.1 p
      rw [show (s.loadUnit p).seg = some seg from hseg] at hlaw
      exact hlaw.2.1
  case abortLoad p =>
    cases h
    refine .onPort fun ps => ?_
    split
    · exact hrespond _ _ _ _ _
    · exact hrespond _ _ _ _ _
    · exact (abortOpen_unmoved _ p).answered _ _ _ _
  case deleteSegment p seg =>
    cases h
    refine .onPort fun ps => ?_
    split
    · exact hrespond _ _ _ _ _
    · rename_i hdelete
      exact ((deleteOn_unmoved hdelete).answered _ _ _ _).settled
  case putEntry p ch index entry =>
    cases h
    refine .onPort fun ps => ?_
    split
    · exact hrespond _ _ _ _ _
    · split
      · exact hrespond _ _ _ _ _
      · rename_i hcheck
        exact ((putOn_unmoved hcheck).answered _ _ _ _).settled
  case trimList p ch newLength =>
    cases h
    refine .onPort fun ps => ?_
    split
    · exact hrespond _ _ _ _ _
    · split
      · exact hrespond _ _ _ _ _
      · rename_i hcheck
        exact ((trimOn_unmoved hcheck).answered _ _ _ _).settled
  case resetPort p =>
    cases h
    exact .onPort fun ps => (resetOnePort_unmoved _ p).answered _ _ _ _
  case portReset p =>
    cases h
    exact (resetOnePort_unmoved s p).trans (.of_eq rfl rfl)
  case drainBurstComplete =>
    cases h
    split
    · split
      · exact drainDone_unmoved s _ _
      · exact .refl s
    · exact .refl s
  all_goals cases hi

/-! ### The channel laws through every step -/

/-- A segment that an entry of a list names is READY or DOOMED (R46). -/
theorem State.ReferenceLaw.held {s : State} (h : s.ReferenceLaw) {c : ChanId} {e : Entry} (he : e ∈ (s.chan c).list) :
    (s.seg e.seg).Held := by
  refine ((referenceLaw_iff s).1 h e.seg).of_named ?_
  have hone : 0 < named (s.chan c).list e.seg := List.countP_pos_iff.2 ⟨e, he, decide_eq_true rfl⟩
  refine hone.trans_le (List.single_le_sum (fun _ _ => Nat.zero_le _) _ (List.mem_map.2 ⟨s.chan c, ?_, rfl⟩))
  exact Vector.mem_toList_iff.2 (Vector.getElem_mem c.isLt)

/-- What the walk law says of one channel. -/
theorem State.walks_of_laws {s : State} (href : s.ReferenceLaw) (hpages : s.PageCountLaw)
    (hrange : ∀ c, (s.chan c).RangeLaw) (hwalk : s.WalkLaw) : s.Walks := by
  have hlong : ∀ c, (s.chan c).Long s.segs := fun c e he => by
    have hlaw := hpages e.seg
    have hlength : ∃ l, (s.seg e.seg).length = some l ∧ 16 ≤ l := by
      rcases href.held he with hs | hs <;> rw [hs] at hlaw <;> obtain ⟨l, hl, hlow, -⟩ := hlaw <;> exact ⟨l, hl, hlow⟩
    obtain ⟨l, hl, hlow⟩ := hlength
    rw [show (s.segs.get e.seg).length = some l from hl]
    exact hlow
  refine ⟨fun c ha => ?_, hlong, fun c => ?_⟩
  · obtain ⟨hclosed, hentry, hjump, hpos⟩ := hwalk c ha
    exact ⟨⟨hlong c, hclosed, hentry, hjump⟩, hpos⟩
  · obtain ⟨-, -, -, hstep, hstaged, -⟩ := hrange c
    exact ⟨hstep, fun n hn => (hstaged n hn).2⟩

theorem State.Walks.walkLaw {s : State} (h : s.Walks) : s.WalkLaw := fun c ha => by
  obtain ⟨hlist, hpass⟩ := h.walk c ha
  exact ⟨hlist.closed, hlist.entry, hlist.jump, hpass⟩

/-- A command on segments and lists keeps the walk law (R60, R64, R90). -/
theorem Stood.walkLaw {s t : State} (h : Stood s t) (hs : s.ReferenceLaw) (ht : t.ReferenceLaw) (hwalk : s.WalkLaw) :
    t.WalkLaw := by
  refine fun c ha => ?_
  obtain ⟨hstate, hstand⟩ := h.1 c ha
  obtain ⟨hlist, hentry, hjump, hpos⟩ := stand_eq hstand
  obtain ⟨hclosed, hin, hstored, hpass⟩ := hwalk c (hstate ▸ ha)
  have hlength : lengthOf t.segs (t.chan c) (t.chan c).entry = lengthOf s.segs (s.chan c) (s.chan c).entry := by
    obtain ⟨e, he⟩ : ∃ e, (s.chan c).list[(s.chan c).entry.val]? = some e := ⟨_, List.getElem?_eq_getElem hin⟩
    have hmem : e ∈ (s.chan c).list := List.mem_of_getElem? he
    have hmem' : e ∈ (t.chan c).list := hlist ▸ hmem
    unfold lengthOf Chan.entryAt
    rw [hlist, hentry, he]
    exact congrArg (fun o : Option Nat => o.getD 0) (h.2 _ (hs.held hmem) (ht.held hmem'))
  rw [hlength, hlist, hentry, hjump, hpos, hstate]
  exact ⟨hclosed, hin, hstored, hpass⟩

/-- Settles O57: every deed of a step keeps the channel laws; the position law follows the deeds of a step that leaves the
segments alone, and the others move no active channel. -/
theorem channelLawsKept : Obligations.ChannelLawsKept := by
  intro s t hkept hlaws h
  have hok : s.Ok := ⟨hkept, fun c => (Chan.lawful_iff _).2 (hlaws c)⟩
  have hok' : t.Ok := step_keep (fun _ _ _ => Deed.ok) h hok
  refine ⟨hok'.kept, fun c => (Chan.lawful_iff _).1 (hok'.lawful c), fun hload href hpages hrange hwalk => ?_⟩
  have hwalks := State.walks_of_laws href hpages hrange hwalk
  rcases step_deeds h with ⟨-, hdeeds⟩ | ⟨i, q, -, hexec, hdeeds⟩
  · exact (hdeeds.walks hok hwalks).walkLaw
  · cases hi : recounts i with
    | true =>
      have hstood : Stood { s with pending := q } t := exec_stood hi hload hexec
      exact Stood.walkLaw (s := { s with pending := q }) hstood href (referenceLawKept s t hload href h) hwalk
    | false =>
      rw [hi, eq_self_iff_true] at hdeeds
      exact (hdeeds.walks hok hwalks).walkLaw

end Sys2Proof.Machine
end

section
/-! ## The first checks of the playback commands (R154), and what a command does to each channel of a mask -/

namespace Sys2Proof.Machine

/-- A command on a port that takes frames acts on the state with the bytes clocked, the ports' records apart. -/
theorem exec_answers {i : Instr} {p : Port} {s : State} {act : State → State} {R : State → Prop}
    (hi : framePort i = some p) (hl : s.Listening p) (hexec : exec i s = .next (onPort p (frameLength i) s act))
    (hrule : ∀ ps t, (s.took i).opened p = { s.took i with ports := ps } → t = act { s.took i with ports := ps } → R t) :
    ∃ t, exec i s = .next t ∧ R t := by
  obtain ⟨ps, ho, hact⟩ := frame_acts hi hl
  exact ⟨_, hexec.trans (congrArg Host.Outcome.next (hact act)), hrule ps _ ho rfl⟩

/-! ### A command on one channel -/

/-- BAD-ARGUMENT, then NOT-CONTROLLER; what is left is the command on a channel that the port controls. -/
theorem onChannel_of {s t : State} {p : Port} {ps : PerPort PortRec} {code ch : Byte} {pl : List Byte}
    {act : ChanId → State} {rest : ChanId → Prop} (ho : s.opened p = { s with ports := ps })
    (ht : t = match State.claimedChan { s with ports := ps } p ch with
      | .error e => State.respond { s with ports := ps } p code e pl
      | .ok c => act c)
    (hrest : ∀ c : ChanId, byteOfNat c.val = ch → t = act c → rest c) : OnChannel s t p code pl ch rest := by
  unfold OnChannel
  by_cases h : ch.toNat < 8
  · rw [dif_pos h]
    rw [claimedChan_of_lt _ p h] at ht
    by_cases hclaim : (s.claimOf ⟨ch.toNat, h⟩).controller ≠ some p
    · rw [if_pos hclaim, ht.trans (by rw [if_pos (show (State.claimOf { s with ports := ps } _).controller ≠ _ from hclaim)])]
      exact respond_refused ho _ _ _
    · rw [if_neg hclaim]
      refine hrest _ (byteOfNat_toNat ch) (ht.trans ?_)
      rw [if_neg (show ¬ (State.claimOf { s with ports := ps } _).controller ≠ _ from hclaim)]
  · rw [dif_neg h, ht, claimedChan_of_not_lt _ p h]
    exact respond_refused ho _ _ _

/-! ### A command on a mask -/

theorem mem_maskChans (mask : Byte) (c : ChanId) : c ∈ maskChans mask ↔ mask.getLsbD c.val = true := by
  simp [maskChans]

theorem maskChans_nodup (mask : Byte) : (maskChans mask).Nodup := (List.nodup_finRange 8).filter _

theorem controlsAll_iff (s : State) (p : Port) (mask : Byte) :
    s.controlsAll p mask = true ↔ ¬ ∃ c : ChanId, mask.getLsbD c.val = true ∧ (s.claimOf c).controller ≠ some p := by
  simp [State.controlsAll, State.controls, mem_maskChans]

/-- An empty mask, then a channel that is not the port's; what is left is the command on channels it controls. -/
theorem onMask_of {s t : State} {p : Port} {ps : PerPort PortRec} {code mask : Byte} {act : State} {rest : Prop}
    (ho : s.opened p = { s with ports := ps })
    (ht : t = if mask = 0#8 then State.respond { s with ports := ps } p code .badArgument []
      else if !State.controlsAll { s with ports := ps } p mask then
        State.respond { s with ports := ps } p code .notController []
      else act)
    (hrest : t = act → rest) : OnMask s t p code mask rest := by
  have hall := controlsAll_iff { s with ports := ps } p mask
  change _ ↔ ¬ ∃ c : ChanId, _ ∧ (s.claimOf c).controller ≠ some p at hall
  unfold OnMask
  by_cases hzero : mask = 0#8
  · rw [if_pos hzero, ht, if_pos hzero]
    exact respond_refused ho _ _ _
  rw [if_neg hzero] at ht ⊢
  cases hc : State.controlsAll { s with ports := ps } p mask with
  | true =>
    rw [if_neg (hall.1 hc)]
    exact hrest (ht.trans (by rw [hc]; rfl))
  | false =>
    rw [if_pos (not_not.1 fun h => Bool.false_ne_true (hc.symm.trans (hall.2 h))), ht, hc]
    exact respond_refused ho _ _ _

/-- One deed on each channel of a list that names none twice. -/
theorem foldl_setChan_spec (f : Chan → Chan) {l : List ChanId} (hl : l.Nodup) (s : State) :
    let t := l.foldl (fun u c => u.setChan c (f (u.chan c))) s
    (∀ d, t.chan d = if d ∈ l then f (s.chan d) else s.chan d) ∧ { t with chans := s.chans } = s := by
  induction l generalizing s with
  | nil => exact ⟨fun d => (if_neg List.not_mem_nil).symm, rfl⟩
  | cons c r ih =>
    obtain ⟨hc, hr⟩ := List.nodup_cons.1 hl
    obtain ⟨hchan, hrest⟩ := ih hr (s.setChan c (f (s.chan c)))
    refine ⟨fun d => (hchan d).trans ?_, (congrArg (fun x : State => { x with chans := s.chans }) hrest :)⟩
    rw [State.setChan_chan]
    by_cases hd : d = c
    · subst hd
      simp [hc]
    · simp [hd]

theorem droppedFor_or (o : Option Burst) (f g : ChanId → Bool) :
    droppedFor (droppedFor o f) g = droppedFor o fun c => f c || g c := by
  cases o with
  | none => rfl
  | some b =>
    unfold droppedFor
    cases hr : b.requester with
    | loadUnit p => simp [hr]
    | fetcher c => cases hf : f c <;> cases hg : g c <;> simp [hr, hf, hg]

theorem droppedFor_none (o : Option Burst) {f : ChanId → Bool} (h : ∀ c, f c = false) : droppedFor o f = o := by
  cases o with
  | none => rfl
  | some b =>
    unfold droppedFor
    cases hr : b.requester <;> simp [hr, h]

/-- The same, of deeds that flush the channels that `drops` picks, with the causes they raise. -/
theorem foldl_putWork_spec (f : Chan → Chan) (drops : Chan → Bool) (causes : Chan → List Kind)
    (deed : ChanId → Work → Work)
    (hdeed : ∀ c w, deed c w
      = ⟨f w.ch, droppedFor w.burst fun d => decide (d = c) && drops w.ch, w.raised ++ causes w.ch⟩)
    {l : List ChanId} (hl : l.Nodup) (s : State) :
    let t := l.foldl (fun u c => u.putWork c (deed c (u.work c))) s
    (∀ d, t.chan d = if d ∈ l then f (s.chan d) else s.chan d)
      ∧ t.burst = (droppedFor s.burst fun d => decide (d ∈ l) && drops (s.chan d))
      ∧ (∀ p, t.port p = { s.port p with
          events := l.foldl (fun l c => (causes (s.chan c)).foldl (fun l k => raiseIn l (.chan c) k .nothing) l)
            (s.port p).events })
      ∧ { t with chans := s.chans, burst := s.burst, ports := s.ports } = s := by
  induction l generalizing s with
  | nil => exact ⟨fun d => (if_neg List.not_mem_nil).symm, (droppedFor_none _ fun _ => rfl).symm, fun p => rfl, rfl⟩
  | cons c r ih =>
    obtain ⟨hc, hr⟩ := List.nodup_cons.1 hl
    have hput := s.putWork_spec c (deed c (s.work c))
    rw [List.foldl_cons]
    generalize s.putWork c (deed c (s.work c)) = u at hput
    rw [hdeed] at hput
    obtain ⟨huchan, huburst, huport, hurest⟩ := hput
    obtain ⟨hchan, hburst, hport, hrest⟩ := ih hr u
    have hother : ∀ d ∈ r, u.chan d = s.chan d := fun d hd =>
      (huchan d).trans (if_neg (ne_of_mem_of_not_mem hd hc))
    refine ⟨fun d => (hchan d).trans ?_, hburst.trans ?_, fun p => (hport p).trans ?_,
      (congrArg (fun x : State => { x with chans := s.chans, burst := s.burst, ports := s.ports }) hrest).trans hurest⟩
    · rw [huchan]
      by_cases hd : d = c
      · subst hd
        simp [hc, State.work]
      · simp [hd]
    · rw [huburst, droppedFor_or]
      refine congrArg _ (funext fun d => ?_)
      rw [huchan]
      by_cases hd : d = c
      · subst hd
        simp [hc, State.work]
      · simp [hd]
    · rw [huport, List.foldl_cons]
      refine congrArg (fun e => { s.port p with events := e }) (List.foldl_ext _ _ _ fun _ d hd => ?_)
      rw [hother d hd]

/-! ### A mask made of conditions -/

theorem getLsbD_one_shiftLeft : ∀ c d : ChanId, (1#8 <<< c.val).getLsbD d.val = decide (d = c) := by
  decide

theorem getLsbD_foldl_mask (f : ChanId → Bool) (l : List ChanId) (m : Byte) (d : ChanId) :
    (l.foldl (fun m c => if f c then m ||| (1#8 <<< c.val) else m) m).getLsbD d.val
      = (m.getLsbD d.val || (decide (d ∈ l) && f d)) := by
  induction l generalizing m with
  | nil => simp
  | cons c r ih =>
    have hbit : (if f c then m ||| (1#8 <<< c.val) else m).getLsbD d.val
        = (m.getLsbD d.val || (decide (d = c) && f c)) := by
      cases f c with
      | false => simp
      | true => rw [if_pos rfl, BitVec.getLsbD_or, getLsbD_one_shiftLeft, Bool.and_true]
    rw [List.foldl_cons, ih, hbit]
    by_cases hd : d = c
    · subst hd
      cases f d <;> simp
    · simp [hd]

theorem getLsbD_maskOf (f : ChanId → Bool) (d : ChanId) : (maskOf f).getLsbD d.val = f d := by
  unfold maskOf
  rw [getLsbD_foldl_mask]
  simp

end Sys2Proof.Machine
end

section
/-! ## DISARM, CLEAR-FAULT and START (R63, R65, R77) -/

namespace Sys2Proof.Machine

/-! ### The answers -/

/-- A flush marks the channel's own burst. -/
theorem Work.flush_burst (c : ChanId) (w : Work) : (w.flush c).burst = droppedFor w.burst fun d => decide (d = c) :=
  dropBurst_eq c w.burst

/-- What a command makes of one channel and of the burst in flight, raising nothing, and its answer. -/
theorem putWork_answered {s t : State} {p : Port} {ps : PerPort PortRec} {c : ChanId} {w : Work} {e : Byte} {st : Status}
    {pl : List Byte} (ho : s.opened p = { s with ports := ps }) (hraised : w.raised = [])
    (ht : t = (State.putWork { s with ports := ps } c w).respond p e st pl) :
    t.chan c = w.ch ∧ OtherChans s t c ∧ t.burst = w.burst ∧ Answered s t p e st pl ∧ OnlyAnswer s t p
      ∧ { t with ports := s.ports, chans := s.chans, burst := s.burst } = s := by
  have hput : State.putWork { s with ports := ps } c w
      = { State.setChan { s with ports := ps } c w.ch with burst := w.burst } := by
    unfold State.putWork
    rw [hraised]
    rfl
  rw [ht, hput]
  obtain ⟨hanswered, honly⟩ := respond_answered
    (v := { State.setChan { s with ports := ps } c w.ch with burst := w.burst }) ho rfl e st pl
  exact ⟨State.setChan_chan_self _ c _, fun d hd => State.setChan_chan_ne _ _ hd, rfl, hanswered, honly, rfl⟩

/-- The same of a command that leaves the burst alone. -/
theorem setChan_answered {s t : State} {p : Port} {ps : PerPort PortRec} {c : ChanId} {k : Chan} {e : Byte} {st : Status}
    {pl : List Byte} (ho : s.opened p = { s with ports := ps })
    (ht : t = (State.setChan { s with ports := ps } c k).respond p e st pl) :
    t.chan c = k ∧ OtherChans s t c ∧ Answered s t p e st pl ∧ OnlyAnswer s t p
      ∧ { t with ports := s.ports, chans := s.chans } = s := by
  rw [ht]
  obtain ⟨hanswered, honly⟩ := respond_answered (v := State.setChan { s with ports := ps } c k) ho rfl e st pl
  exact ⟨State.setChan_chan_self _ c _, fun d hd => State.setChan_chan_ne _ _ hd, hanswered, honly, rfl⟩

/-! ### DISARM -/

theorem Work.disarm_rule (c : ChanId) (w : Work) : DisarmedRule w.ch (w.disarm c).ch := rfl

theorem exec_disarm {s : State} {p : Port} (ch : Byte) (hl : s.Listening p) :
    ∃ t, exec (.disarm p ch) s = .next t ∧ DisarmRule (s.took (.disarm p ch)) t p ch := by
  refine exec_answers (i := .disarm p ch) rfl hl rfl fun ps t ho ht => ?_
  generalize s.took _ = w at ho ht ⊢
  refine onChannel_of ho ht fun c _ ht => ?_
  have hrefused := respond_refused ho Code.disarm .channelState []
  cases hstate : (w.chan c).state
  all_goals rw [show (State.chan { w with ports := ps } c).state = _ from hstate] at ht
  case arming | armed =>
    obtain ⟨hchan, hother, hburst, hrest⟩ := putWork_answered ho rfl ht
    rw [if_pos (by decide)]
    exact ⟨hchan ▸ Work.disarm_rule c (w.work c), hother, hburst.trans (Work.flush_burst c (w.work c)), hrest⟩
  case idle | running | waiting | stopping | halted =>
    rw [if_neg (by decide), ht]
    exact hrefused

/-! ### CLEAR-FAULT -/

theorem FaultRec.bytes_eq (f : FaultRec) : f.bytes = Table.fault f := by
  have hcause : f.cause.code = Table.cause f.cause := by cases f.cause <;> rfl
  have hbefore : f.before.code = Table.chanState f.before := by cases f.before <;> rfl
  simp [FaultRec.bytes, Table.fault, hcause, hbefore]

theorem exec_clearFault {s : State} {p : Port} (ch : Byte) (hl : s.Listening p) :
    ∃ t, exec (.clearFault p ch) s = .next t ∧ ClearFaultRule (s.took (.clearFault p ch)) t p ch := by
  refine exec_answers (i := .clearFault p ch) rfl hl rfl fun ps t ho ht => ?_
  generalize s.took _ = w at ho ht ⊢
  refine onChannel_of ho ht fun c _ ht => ?_
  dsimp only
  by_cases hstate : (w.chan c).state = .halted
  · rw [if_neg (not_not.2 hstate)]
    rw [if_pos (show (State.chan { w with ports := ps } c).state = _ from hstate)] at ht
    obtain ⟨hchan, hother, hanswered, hrest⟩ := setChan_answered ho ht
    obtain ⟨hout, hlane, hframe⟩ :=
      Chan.place_spec { w.chan c with state := .idle, fault := none, consec := 0 } (w.chan c).stat.idle
    have hcleared : t.chan c
        = Chan.place { w.chan c with state := .idle, fault := none, consec := 0 } (w.chan c).stat.idle := hchan
    rw [hcleared]
    refine ⟨rfl, rfl, rfl, hout, hlane, rfl, hother, ?_, hrest⟩
    cases hfault : (w.chan c).fault
    all_goals rw [show (State.chan { w with ports := ps } c).fault = _ from hfault] at hanswered
    case none => exact hanswered
    case some f =>
      change Answered w t p _ _ (Table.fault f)
      rw [← f.bytes_eq]
      exact hanswered
  · rw [if_pos hstate, ht, if_neg (show ¬ (State.chan { w with ports := ps } c).state = _ from hstate)]
    exact respond_refused ho _ _ _

/-- Settles O32: each acts on the state it names alone; DISARM flushes, CLEAR-FAULT puts the lane to the idle level. -/
theorem disarmsAndClears : Obligations.DisarmsAndClears :=
  fun _ _ ch hl => ⟨exec_disarm ch hl, exec_clearFault ch hl⟩

/-! ### START -/

theorem ChanState.startable_eq (k : ChanState) : k.startable = (decide (k = .arming) || decide (k = .armed)) := by
  cases k <;> rfl

/-- Settles O33: the checks refuse in order; each channel that is ARMING or ARMED gets start-pending. -/
theorem starts : Obligations.Starts := by
  intro s p mask hl
  refine exec_answers (i := .start p mask) rfl hl rfl fun ps t ho ht => ?_
  generalize s.took _ = w at ho ht ⊢
  refine onMask_of ho ht fun ht => ?_
  dsimp only
  by_cases hclock : w.monitor.clock = .lost
  · rw [if_pos hclock, ht, if_pos (show ({ w with ports := ps } : State).monitor.clock = _ from hclock)]
    exact respond_refused ho _ _ _
  rw [if_neg hclock]
  rw [if_neg (show ¬ ({ w with ports := ps } : State).monitor.clock = _ from hclock)] at ht
  obtain ⟨hchan, hrest⟩ := foldl_setChan_spec Chan.startCommand (maskChans_nodup mask) { w with ports := ps }
  generalize List.foldl _ _ _ = v at hchan hrest ht
  have hports : v.ports = ps := (congrArg State.ports hrest :)
  obtain ⟨hanswered, honly⟩ := respond_answered ho hports Code.start
    (if (Table.channels mask).all fun c => (w.chan c).state.startable then .ok else .channelState)
    (outcomeList mask fun c => (w.chan c).state.startable)
  simp only [← ChanState.startable_eq]
  rw [ht]
  refine ⟨fun c => (hchan c).trans ?_, hanswered, honly, (congrArg (fun x : State => { x with ports := w.ports }) hrest :)⟩
  simp only [mem_maskChans, ite_and]
  rfl

end Sys2Proof.Machine
end

section
/-! ## STOP (R72) and APPLY-GROUP (R147) -/

namespace Sys2Proof.Machine

/-! ### STOP on one channel -/

/-- A channel flushed (R113). -/
def Chan.flushed (k : Chan) : Chan :=
  { k with fifo := [], cursor := none, target := none, underrun := false, passStalled := false }

/-- A channel flushed by a STOP with this mode. -/
def Chan.flushedFor (mode : StopPoint) (k : Chan) : Chan := if mode = .immediate then k.flushed else k

/-- What STOP makes of a channel. -/
def Chan.stopped (mode : StopPoint) (k : Chan) : Chan :=
  match k.state with
  | .idle | .halted => k
  | .arming | .armed => { k.flushed.clearLatches with startPending := false, state := .idle }
  | .running => ({ k with stop := some mode, state := .stopping }).flushedFor mode
  | .stopping => (if mode.stronger k.stop then { k with stop := some mode } else k).flushedFor mode
  | .waiting => ({ k with stop := some .immediate }).flushed

/-- STOP flushes a channel in this state. -/
def ChanState.stopFlushes (mode : StopPoint) (k : ChanState) : Bool :=
  match k with
  | .arming | .armed | .waiting => true
  | .running | .stopping => decide (mode = .immediate)
  | .idle | .halted => false

theorem Work.flushFor_eq (c : ChanId) (mode : StopPoint) (w : Work) :
    w.flushFor c mode
      = ⟨w.ch.flushedFor mode, droppedFor w.burst fun d => decide (d = c) && decide (mode = .immediate), w.raised⟩ := by
  unfold Work.flushFor Chan.flushedFor
  by_cases h : mode = .immediate
  · simp only [h, if_true, decide_true, Bool.and_true, ← dropBurst_eq]
    rfl
  · simp only [h, if_false, decide_false, Bool.and_false, droppedFor_none w.burst fun _ => rfl]

theorem Work.stopCommand_eq (c : ChanId) (mode : StopPoint) (w : Work) :
    w.stopCommand c mode
      = ⟨w.ch.stopped mode, droppedFor w.burst fun d => decide (d = c) && w.ch.state.stopFlushes mode, w.raised⟩ := by
  have hflush : (droppedFor w.burst fun d => decide (d = c) && true) = dropBurst c w.burst := by
    simp only [Bool.and_true, dropBurst_eq]
  cases hstate : w.ch.state
  all_goals
    unfold Work.stopCommand Chan.stopped
    dsimp only [ChanState.stopFlushes]
    rw [hstate]
  case idle | halted => exact congrArg (fun b => Work.mk w.ch b w.raised) (droppedFor_none _ fun _ => Bool.and_false _).symm
  case arming | armed | waiting =>
    rw [hflush]
    rfl
  case running => exact Work.flushFor_eq c mode _
  case stopping =>
    dsimp only
    rw [Work.flushFor_eq]
    split_ifs <;> rfl

theorem Chan.stopped_rule (mode : StopPoint) (k : Chan) : StoppedRule k (k.stopped mode) mode := by
  cases k with
  | mk state entry pass pos stop =>
    cases state with
    | idle | halted | arming | armed | waiting => rfl
    | running => cases mode <;> rfl
    | stopping => rcases stop with - | (- | - | -) <;> cases mode <;> rfl

/-! ### STOP -/

theorem stopModeOf_spec (b : Byte) :
    match stopModeOf b with
    | some m => Table.stop m = b ∧ ¬ 2 < b.toNat
    | none => 2 < b.toNat := by
  unfold stopModeOf
  split_ifs with h0 h1 h2
  · exact ⟨h0.symm, by rw [h0]; decide⟩
  · exact ⟨h1.symm, by rw [h1]; decide⟩
  · exact ⟨h2.symm, by rw [h2]; decide⟩
  · dsimp only
    bv_omega

/-- Settles O34: the checks refuse in order; each channel of the mask is stopped by its state. -/
theorem stops : Obligations.Stops := by
  intro s p mask mode hl
  refine exec_answers (i := .stop p mask mode) rfl hl rfl fun ps t ho ht => ?_
  generalize s.took _ = w at ho ht ⊢
  have hmode := stopModeOf_spec mode
  unfold StopRule
  dsimp only at ht
  cases hm : stopModeOf mode with
  | none =>
    rw [hm] at hmode ht
    rw [if_pos hmode, ht]
    exact respond_refused ho _ _ _
  | some m =>
    rw [hm] at hmode ht
    obtain ⟨hcode, hlow⟩ := hmode
    rw [if_neg hlow]
    refine ⟨m, hcode, onMask_of ho ht fun ht => ?_⟩
    obtain ⟨hchan, hburst, hport, hrest⟩ := foldl_putWork_spec (Chan.stopped m) (fun k => k.state.stopFlushes m) (fun _ => [])
      (fun c w => w.stopCommand c m) (fun c w => by rw [w.stopCommand_eq, List.append_nil]) (maskChans_nodup mask) { w with ports := ps }
    generalize List.foldl _ { w with ports := ps } _ = v at hchan hburst hport hrest ht
    simp only [List.foldl_nil, List.foldl_fixed] at hport
    have hports : v.ports = ps := PerPort.ext_get hport
    obtain ⟨hanswered, honly⟩ := respond_answered ho hports Code.stop
      (if (Table.channels mask).all fun c => decide ((w.chan c).state ≠ .halted) then .ok else .channelState)
      (outcomeList mask fun c => decide ((w.chan c).state ≠ .halted))
    rw [ht]
    refine ⟨fun c => ?_, hanswered, honly, hburst.trans ?_, (congrArg (fun x : State => { x with ports := w.ports }) hrest :)⟩
    · have hc := hchan c
      simp only [mem_maskChans] at hc
      change v.chan c = if mask.getLsbD c.val = true then (w.chan c).stopped m else w.chan c at hc
      change if mask.getLsbD c.val = true then StoppedRule (w.chan c) (v.chan c) m else v.chan c = w.chan c
      rw [hc]
      split
      · exact Chan.stopped_rule m (w.chan c)
      · rfl
    · simp only [mem_maskChans, Bool.decide_eq_true]
      rfl

end Sys2Proof.Machine
end

section
/-! ## APPLY-GROUP (R147) -/

namespace Sys2Proof.Machine

theorem Chan.joinGroup_eq (k : Chan) :
    k.joinGroup = if k.state.playing = true ∧ k.staged.isEmpty = false then
      { k with staged := { k.staged with group := true } } else k := by
  unfold Chan.joinGroup
  simp only [Bool.and_eq_true, Bool.not_eq_true']

theorem exec_applyGroup {s : State} {p : Port} (mask : Byte) (hl : s.Listening p) :
    ∃ t, exec (.applyGroup p mask) s = .next t ∧ GroupRule (s.took (.applyGroup p mask)) t p mask := by
  refine exec_answers (i := .applyGroup p mask) rfl hl rfl fun ps t ho ht => ?_
  generalize s.took _ = w at ho ht ⊢
  refine onMask_of ho ht fun ht => ?_
  obtain ⟨hchan, hrest⟩ := foldl_setChan_spec Chan.joinGroup (maskChans_nodup mask) { w with ports := ps }
  generalize List.foldl _ _ _ = v at hchan hrest ht
  have hports : v.ports = ps := (congrArg State.ports hrest :)
  obtain ⟨hanswered, honly⟩ := respond_answered ho hports Code.applyGroup .ok
    [maskOf fun c => (v.chan c).staged.group]
  rw [ht]
  refine ⟨fun c => (hchan c).trans ?_, ⟨_, hanswered, getLsbD_maskOf _⟩, honly,
    (congrArg (fun x : State => { x with ports := w.ports }) hrest :)⟩
  simp only [mem_maskChans, Chan.joinGroup_eq, ite_and]
  rfl

end Sys2Proof.Machine
end

section
/-! ## The channels that tick with a channel, and the others -/

namespace Sys2Proof.Machine

/-! ### A run of ticks -/

/-- Of a channel that is not among those that tick, ticks can change the cursor and the pending target only. -/
theorem foldl_tickOne_chan_ne {d : ChanId} {l : List ChanId} (hd : d ∉ l) (s : State) :
    { (l.foldl State.tickOne s).chan d with cursor := (s.chan d).cursor, target := (s.chan d).target } = s.chan d := by
  induction l generalizing s with
  | nil => rfl
  | cons c r ih =>
    obtain ⟨hc, hr⟩ := not_or.1 fun h => hd (List.mem_cons.2 h)
    exact (congrArg (fun k : Chan => { k with cursor := (s.chan d).cursor, target := (s.chan d).target })
      (ih hr (s.tickOne c))).trans (s.tickOne_chan_ne hc)

theorem foldl_tickOne_tickOf_ne {d : ChanId} {l : List ChanId} (hd : d ∉ l) (s : State) :
    (l.foldl State.tickOne s).tickOf d = s.tickOf d := by
  induction l generalizing s with
  | nil => rfl
  | cons c r ih =>
    obtain ⟨hc, hr⟩ := not_or.1 fun h => hd (List.mem_cons.2 h)
    exact (ih hr (s.tickOne c)).trans (s.tickOne_tickOf_ne hc)

/-- The channel of a tick and those that coincide with it. -/
def State.ticking (s : State) (c : ChanId) : List ChanId := c :: s.coincident c

theorem State.ticking_nodup (s : State) (c : ChanId) : (s.ticking c).Nodup :=
  List.nodup_cons.2 ⟨fun hc => ((s.mem_coincident c c).1 hc).1 rfl, (List.nodup_finRange 8).filter _⟩

/-- A due channel with the divider of the channel whose tick it is ticks with it. -/
theorem State.mem_ticking {s : State} {c d : ChanId} (hd : s.tickOf d = .due)
    (hdiv : (s.chan d).stat.divider = (s.chan c).stat.divider) : d ∈ s.ticking c := by
  by_cases h : d = c
  · exact List.mem_cons.2 (.inl h)
  · exact List.mem_cons.2 (.inr ((s.mem_coincident c d).2 ⟨h, hd, hdiv⟩))

theorem State.not_mem_ticking {s : State} {c d : ChanId} (h : d ≠ c)
    (hdiv : s.tickOf d = .due → (s.chan d).stat.divider ≠ (s.chan c).stat.divider) : d ∉ s.ticking c := by
  intro hd
  obtain ⟨-, hdue, heq⟩ := (s.mem_coincident c d).1 ((List.mem_cons.1 hd).resolve_left h)
  exact hdiv hdue heq

theorem exec_outputTick {s : State} {c : ChanId} (h : s.tickOf c = .due) :
    exec (.outputTick c) s = .next ((s.ticking c).foldl State.tickOne s) :=
  congrArg Host.Outcome.next (if_pos (decide_eq_true h))

/-! ### What a tick touches -/

theorem tickOne_eventsOnly (s : State) (c : ChanId) : EventsOnly s (s.tickOne c) := by
  obtain ⟨-, -, hport, -⟩ := s.ticked_spec c
  rw [s.tickOne_ticked]
  exact .trans (fun q => ⟨_, hport q⟩) (.of_ports (s.ticked c).arbitrate_ports)

theorem foldl_tickOne_eventsOnly (l : List ChanId) (s : State) : EventsOnly s (l.foldl State.tickOne s) := by
  induction l generalizing s with
  | nil => exact .of_ports rfl
  | cons c r ih => exact (tickOne_eventsOnly s c).trans (ih _)

/-- Settles O38: the other channels keep all but what their grant decision changes, and no list or static parameter
changes. -/
theorem ticksTouchTheirChannels : Obligations.TicksTouchTheirChannels := by
  intro s t c hdue hexec
  cases hexec.symm.trans (exec_outputTick hdue)
  have hsame : SameBut [] s ((s.ticking c).foldl State.tickOne s) := .foldl tickOne_same _ s
  refine ⟨fun d h hdiv => foldl_tickOne_chan_ne (State.not_mem_ticking h hdiv) s,
    fun d h hdiv => foldl_tickOne_tickOf_ne (State.not_mem_ticking h hdiv) s, fun p => ?_,
    fun d => ⟨hsame .lists List.not_mem_nil d, hsame .statics List.not_mem_nil d⟩, ?_⟩
  · obtain ⟨l, hl⟩ := foldl_tickOne_eventsOnly (s.ticking c) s p
    rw [hl]
  · obtain ⟨_, _, _, _, _, _, h⟩ := State.foldl_tickOne_eq (s.ticking c) s
    rw [h]

/-! ### The record of a group request -/

/-- What follows the record of a tick in play leaves an empty record and the live parameters. -/
theorem Work.startOfTick_beginTick {w : Work} (h : w.ch.state.playing = true) : w.startOfTick.Records w.beginTick.1 := by
  unfold Work.beginTick
  cases hstate : w.ch.state
  all_goals rw [hstate] at h
  case idle | arming | armed | halted => exact absurd h (by decide)
  case running | stopping => exact .refl _
  case waiting =>
    dsimp only
    split_ifs
    · exact .refl _
    · exact .after (Work.startEntry_records _) (.quiet rfl rfl rfl)
    · exact .after (Work.startEntry_records _) (.quiet rfl rfl rfl)
    · exact .refl _

/-- A group request applies the record at the start of the tick. -/
theorem Work.startOfTick_group {w : Work} (hg : w.ch.staged.group = true) (he : w.ch.staged.isEmpty = false) :
    w.startOfTick.ch.staged.isEmpty = true ∧ w.startOfTick.ch.live = (applied w.ch true).1.live := by
  rw [w.startOfTick_eq, hg, Bool.true_or]
  unfold Work.withRecord applied
  dsimp only
  rw [he]
  exact ⟨rfl, rfl⟩

theorem State.tickOne_group {s : State} {d : ChanId} (hplay : (s.chan d).state.playing = true)
    (he : (s.chan d).staged.isEmpty = false) (hg : (s.chan d).staged.group = true) :
    ((s.tickOne d).chan d).staged.isEmpty = true
      ∧ ((s.tickOne d).chan d).live = (applied (s.chan d) true).1.live := by
  have hself := s.tickOne_chan_self d
  have hstaged : ((s.tickOne d).chan d).staged = (s.tickEndOf d).ch.staged := (congrArg Chan.staged hself :)
  have hlive : ((s.tickOne d).chan d).live = (s.tickEndOf d).ch.live := (congrArg Chan.live hself :)
  have hrest : (s.work d).startOfTick.Records (s.tickEndOf d) :=
    (((s.work d).startOfTick_beginTick hplay).trans ((s.work d).tickWord_after_begin s.segs _)).trans
      (.after (Work.tickEnd_records s.segs d (s.tickRestOf d) _) ⟨fun _ => .nil, fun h => ⟨h, rfl⟩, id⟩)
  obtain ⟨hempty, hvalue⟩ := Work.startOfTick_group (w := s.work d) hg he
  obtain ⟨hempty', hvalue'⟩ := hrest.live hempty
  exact ⟨hstaged ▸ hempty', hlive.trans (hvalue'.trans hvalue)⟩

theorem foldl_tickOne_group {s : State} {d : ChanId} {l : List ChanId} (hl : l.Nodup) (hd : d ∈ l)
    (hplay : (s.chan d).state.playing = true) (he : (s.chan d).staged.isEmpty = false)
    (hg : (s.chan d).staged.group = true) :
    (l.foldl State.tickOne s).tickOf d ≠ .due ∧ ((l.foldl State.tickOne s).chan d).staged.isEmpty = true
      ∧ ((l.foldl State.tickOne s).chan d).live = (applied (s.chan d) true).1.live := by
  obtain ⟨before, after, rfl⟩ := List.append_of_mem hd
  obtain ⟨-, hnodup, hdisjoint⟩ := List.nodup_append.1 hl
  have hafter : d ∉ after := (List.nodup_cons.1 hnodup).1
  have hbefore : d ∉ before := fun h => hdisjoint d h d List.mem_cons_self rfl
  rw [List.foldl_append, List.foldl_cons]
  have hframe := foldl_tickOne_chan_ne hbefore s
  generalize before.foldl State.tickOne s = u at hframe
  have hstate : (u.chan d).state = (s.chan d).state := (congrArg Chan.state hframe :)
  have hstaged : (u.chan d).staged = (s.chan d).staged := (congrArg Chan.staged hframe :)
  have hlive : (u.chan d).live = (s.chan d).live := (congrArg Chan.live hframe :)
  have hsame : (applied (u.chan d) true).1.live = (applied (s.chan d) true).1.live := by
    unfold applied
    rw [hstaged, hlive]
    split_ifs
    · rfl
    · exact hlive
  obtain ⟨hempty, hvalue⟩ := State.tickOne_group (s := u) (d := d) (hstate ▸ hplay) (hstaged ▸ he) (hstaged ▸ hg)
  have hlast := foldl_tickOne_chan_ne hafter (u.tickOne d)
  have hstaged' := (congrArg Chan.staged hlast :)
  have hlive' := (congrArg Chan.live hlast :)
  refine ⟨?_, hstaged' ▸ hempty, (hlive'.trans hvalue).trans hsame⟩
  rw [foldl_tickOne_tickOf_ne hafter, State.tickOne_tickOf, if_pos rfl]
  exact nofun

/-- Settles O29: the group request is set on the channels in play with a record; applying one writes the fields it has; at
one tick of each of them the records of channels with equal dividers are gone. -/
theorem recordsApplied : Obligations.RecordsApplied := by
  refine ⟨fun s p mask hl => exec_applyGroup mask hl, fun w => ⟨fun h => ?_, fun h => ?_, rfl, rfl⟩, ?_⟩
  · rw [w.applyStaged_spec, if_pos h]
  · rw [w.applyStaged_spec, if_neg (by rw [h]; decide)]
    rfl
  · intro s c d hc hd hdiv hplay he hg
    exact ⟨_, exec_outputTick hc, foldl_tickOne_group (s.ticking_nodup c) (State.mem_ticking hd hdiv) hplay he hg⟩

end Sys2Proof.Machine
end

section
/-! ## ARM (R59 to R61) -/

namespace Sys2Proof.Machine

/-! ### The checks of the entries (R60) -/

/-- One check of the entries: the lowest that fails it is reported, or the checks go on. -/
theorem lowest_of_firstIndex {f : Entry → Bool} {P : Entry → Prop} (hf : ∀ e, f e = true ↔ P e) {k : Chan}
    (hlen : k.list.length ≤ 64) {C : Prop} {_ : Decidable C} (hC : C ↔ ∃ e ∈ k.list, P e) {Q : EntryIx → Prop}
    {rest : Prop} (hsome : ∀ j : EntryIx, firstIndex f k.list 0 = some j.val → Q j) (hnone : firstIndex f k.list 0 = none → rest) :
    if C then
      ∃ j : EntryIx, (∃ e, k.entryAt j = some e ∧ P e) ∧ (∀ i : EntryIx, i < j → ∀ e, k.entryAt i = some e → ¬ P e)
        ∧ Q j
    else rest := by
  have hlow := lowestRule_firstIndex hf k.list
  cases hn : firstIndex f k.list 0 with
  | none =>
    rw [hn] at hlow
    rw [if_neg (hC.not.2 fun ⟨e, he, hbad⟩ => hlow e he hbad)]
    exact hnone hn
  | some n =>
    rw [hn] at hlow
    obtain ⟨⟨e, he, hbad⟩, hbelow⟩ := hlow
    obtain ⟨hlt, -⟩ := List.getElem?_eq_some_iff.1 he
    rw [if_pos (hC.2 ⟨e, List.mem_of_getElem? he, hbad⟩)]
    exact ⟨⟨n, Nat.lt_of_lt_of_le hlt hlen⟩, ⟨e, he, hbad⟩, fun i hi x hx => hbelow i x hi hx, hsome ⟨n, _⟩ hn⟩

/-- The six checks, with what a failed one reports and what is done when all pass. -/
def ArmChecks (s : State) (p : Port) (c : ChanId) (refused : Status → List Byte → Prop) (taken : Prop) : Prop :=
  let k := s.chan c
  let l := k.list
  let fails := fun (st : Status) (check : Byte) (bad : Entry → Prop) =>
    ∃ j : EntryIx, (∃ e, k.entryAt j = some e ∧ bad e)
      ∧ (∀ i : EntryIx, i < j → ∀ e, k.entryAt i = some e → ¬ bad e) ∧ refused st [check, 1#8, byteOfNat j.val]
  let notReady := fun e : Entry => (s.seg e.seg).state ≠ .ready
  let hidden := fun e : Entry => (s.seg e.seg).owner ≠ some p ∧ (s.seg e.seg).vis = some .ownerOnly
  let unresolved := fun e : Entry => ∃ x, e.next = some x ∧ l.length ≤ x.val
  let sourceless := fun e : Entry => (e.wait = true ∨ e.leave = true) ∧ k.stat.advSrc = none
  if l = [] then refused .emptyList [1#8, 0#8]
  else if ∃ e ∈ l, notReady e then fails .segmentState 2#8 notReady
  else if ∃ e ∈ l, hidden e then fails .notVisible 3#8 hidden
  else if ∃ e ∈ l, e.next.any (fun x => decide (l.length ≤ x.val)) = true then fails .badIndex 4#8 unresolved
  else if ∃ e ∈ l, sourceless e then fails .noSource 5#8 sourceless
  else if k.stat.combine = .addPartner ∧ (s.chan (partner c)).stat.divider ≠ k.stat.divider then
    refused .partnerRate [6#8, 0#8]
  else taken

theorem armFailure_checks {s : State} {p : Port} {c : ChanId} (hlen : (s.chan c).list.length ≤ 64)
    {refused : Status → List Byte → Prop} {taken : Prop}
    (hrefused : ∀ st check j, s.armFailure p c = some (st, check, j) →
      refused st (byteOfNat check :: putOpt putByte (j.map byteOfNat)))
    (htaken : s.armFailure p c = none → taken) : ArmChecks s p c refused taken := by
  unfold State.armFailure at hrefused htaken
  unfold ArmChecks
  dsimp only at hrefused htaken ⊢
  by_cases hempty : (s.chan c).list = []
  · rw [if_pos hempty] at hrefused ⊢
    exact hrefused _ _ _ rfl
  rw [if_neg hempty] at hrefused htaken ⊢
  refine lowest_of_firstIndex (fun _ => decide_eq_true_iff) hlen .rfl (fun n hn => ?_) fun hn => ?_
  · rw [hn] at hrefused
    exact hrefused _ _ _ rfl
  rw [hn] at hrefused htaken
  refine lowest_of_firstIndex (fun e => (s.seg e.seg).hiddenFrom_iff p) hlen .rfl (fun n hn => ?_) fun hn => ?_
  · rw [hn] at hrefused
    exact hrefused _ _ _ rfl
  rw [hn] at hrefused htaken
  refine lowest_of_firstIndex (Entry.unresolved_iff _) hlen ?_ (fun n hn => ?_) fun hn => ?_
  · simp only [Option.any_eq_true, decide_eq_true_eq]
  · rw [hn] at hrefused
    exact hrefused _ _ _ rfl
  rw [hn] at hrefused htaken
  refine lowest_of_firstIndex (f := fun e => (e.wait || e.leave) && (s.chan c).stat.advSrc.isNone) (fun e => ?_) hlen .rfl
    (fun n hn => ?_) fun hn => ?_
  · simp
  · rw [hn] at hrefused
    exact hrefused _ _ _ rfl
  rw [hn] at hrefused htaken
  dsimp only at hrefused htaken
  split
  · rename_i hpartner
    rw [if_pos hpartner] at hrefused
    exact hrefused _ _ _ rfl
  · rename_i hpartner
    rw [if_neg hpartner] at htaken
    exact htaken rfl

theorem armFailure_ne_ok {s : State} {p : Port} {c : ChanId} {st : Status} {n : Nat} {j : Option Nat}
    (h : s.armFailure p c = some (st, n, j)) : st ≠ .ok := by
  unfold State.armFailure at h
  dsimp only at h
  rintro rfl
  split_ifs at h
  · cases h
  repeat' split at h
  all_goals cases h

end Sys2Proof.Machine
end

section
/-! ### ARM -/

namespace Sys2Proof.Machine

theorem respond_status (s : State) (p : Port) (e : Byte) (st : Status) (pl : List Byte) :
    ((s.respond p e st pl).port p).unread.map Response.status = some st := by
  rw [State.respond_port]
  rfl

/-- An event of the Fetcher: the arbiter judges its request if the command was taken (R115). -/
def State.judgedIfOk (t : State) (p : Port) : State :=
  if (t.port p).unread.map Response.status = some .ok then t.arbitrate else t

theorem judgedIfOk_respond_ok (s : State) (p : Port) (e : Byte) (pl : List Byte) :
    (s.respond p e .ok pl).judgedIfOk p = (s.respond p e .ok pl).arbitrate :=
  if_pos (respond_status s p e .ok pl)

theorem judgedIfOk_respond_ne {st : Status} (h : st ≠ .ok) (s : State) (p : Port) (e : Byte) (pl : List Byte) :
    (s.respond p e st pl).judgedIfOk p = s.respond p e st pl :=
  if_neg fun hst => h (Option.some.inj ((respond_status s p e st pl).symm.trans hst))

theorem claimedChan_ne_ok {s : State} {p : Port} {ch : Byte} {e : Status} (h : s.claimedChan p ch = .error e) :
    e ≠ .ok := by
  rintro rfl
  by_cases hch : ch.toNat < 8
  · rw [claimedChan_of_lt s p hch] at h
    split_ifs at h
    cases h
  · rw [claimedChan_of_not_lt s p hch] at h
    cases h

/-- ARM before the arbiter judges the Fetcher's request. -/
def State.armAnswered (s : State) (p : Port) (ch : Byte) : State :=
  match s.claimedChan p ch with
  | .error e => s.respond p Code.arm e [ch]
  | .ok c =>
    if (s.chan c).state ≠ .idle then s.respond p Code.arm .channelState [ch]
    else if s.monitor.clock = .lost then s.respond p Code.arm .noClock [ch]
    else match s.armFailure p c with
      | some (st, check, j) => s.respond p Code.arm st (ch :: byteOfNat check :: putOpt putByte (j.map byteOfNat))
      | none => (s.putWork c ((s.work c).arm c)).respond p Code.arm .ok [ch]

theorem exec_arm {s : State} {p : Port} (ch : Byte) (hl : s.Listening p) :
    ∃ ps, (s.took (.arm p ch)).opened p = { s.took (.arm p ch) with ports := ps }
      ∧ exec (.arm p ch) s
        = .next ((State.armAnswered { s.took (.arm p ch) with ports := ps } p ch).judgedIfOk p) := by
  obtain ⟨ps, ho, hact⟩ := frame_acts (i := .arm p ch) rfl hl
  refine ⟨ps, ho, congrArg Host.Outcome.next ((hact _).trans ?_)⟩
  generalize ({ s.took (.arm p ch) with ports := ps } : State) = v
  unfold State.armAnswered
  cases hclaim : v.claimedChan p ch with
  | error e => exact (judgedIfOk_respond_ne (claimedChan_ne_ok hclaim) _ _ _ _).symm
  | ok c =>
    dsimp only
    by_cases hstate : (v.chan c).state ≠ .idle
    · rw [if_pos hstate, if_pos hstate, judgedIfOk_respond_ne (by decide)]
    rw [if_neg hstate, if_neg hstate]
    by_cases hclock : v.monitor.clock = .lost
    · rw [if_pos hclock, if_pos hclock, judgedIfOk_respond_ne (by decide)]
    rw [if_neg hclock, if_neg hclock]
    cases hfail : v.armFailure p c with
    | none => exact (judgedIfOk_respond_ok _ _ _ _).symm
    | some f =>
      obtain ⟨st, check, j⟩ := f
      exact (judgedIfOk_respond_ne (armFailure_ne_ok hfail) _ _ _ _).symm

theorem armAnswered_rule {s t : State} {p : Port} {ps : PerPort PortRec} {ch : Byte}
    (ho : s.opened p = { s with ports := ps }) (hlen : ∀ c, (s.chan c).list.length ≤ 64)
    (ht : t = State.armAnswered { s with ports := ps } p ch) : ArmRule s t p ch := by
  have hrefused := respond_refused ho Code.arm
  refine onChannel_of ho ht fun c _ ht => ?_
  by_cases hstate : (s.chan c).state ≠ .idle
  · rw [if_pos hstate, ht, if_pos (show (State.chan { s with ports := ps } c).state ≠ _ from hstate)]
    exact hrefused _ _
  rw [if_neg hstate]
  rw [if_neg (show ¬ (State.chan { s with ports := ps } c).state ≠ _ from hstate)] at ht
  by_cases hclock : s.monitor.clock = .lost
  · rw [if_pos hclock, ht, if_pos (show ({ s with ports := ps } : State).monitor.clock = _ from hclock)]
    exact hrefused _ _
  rw [if_neg hclock]
  rw [if_neg (show ¬ ({ s with ports := ps } : State).monitor.clock = _ from hclock)] at ht
  refine armFailure_checks (s := s) (p := p) (c := c) (refused := fun st pl => OnlyAnswered s t p Code.arm st (ch :: pl))
    (hlen c) (fun st check j hfail => ?_) fun hfail => ?_
  · rw [ht, show State.armFailure { s with ports := ps } p c = _ from hfail]
    exact hrefused _ _
  · rw [show State.armFailure { s with ports := ps } p c = _ from hfail] at ht
    obtain ⟨hchan, hother, hburst, hrest⟩ := putWork_answered ho rfl ht
    exact ⟨hchan, hother, hburst.trans (Work.flush_burst c (s.work c)), hrest⟩

/-- Settles O31: the checks refuse in order, each with its number and the lowest entry that fails it; a channel that passes
them is ARMING from entry 0. -/
theorem arms : Obligations.Arms := by
  intro s p ch hl hlen
  obtain ⟨ps, ho, hexec⟩ := exec_arm ch hl
  refine ⟨_, armAnswered_rule ho (fun c => ?_) rfl, hexec⟩
  exact hlen c

end Sys2Proof.Machine
end

section
/-! ## JUMP (R74, R75, R110, R112) -/

namespace Sys2Proof.Machine

theorem jumpCheck_of_not_playing {k : Chan} (target : Byte) (h : k.state.playing = false) :
    k.jumpCheck target = .error .channelState := by
  unfold Chan.jumpCheck
  rw [h]
  rfl

/-- Checks 4 and 5 on a channel in play. -/
theorem jumpCheck_of_playing {k : Chan} (target : Byte) (h : ¬ k.state.playing = false) :
    k.jumpCheck target =
      if k.stop = some .atPass ∨ k.stop = some .immediate then .error .stopPending
      else if hj : k.list.length ≤ target.toNat ∨ 64 ≤ target.toNat then .error .badIndex
      else .ok ⟨target.toNat, not_le.1 fun h => hj (.inr h)⟩ := by
  unfold Chan.jumpCheck
  rw [Bool.not_eq_false] at h
  rw [h, Bool.not_true, if_neg Bool.false_ne_true]
  by_cases hlist : k.list.length ≤ target.toNat
  · rw [if_pos hlist, dif_pos (.inl hlist)]
  rw [if_neg hlist]
  by_cases hlow : target.toNat < 64
  · rw [dif_pos hlow, dif_neg (not_or.2 ⟨hlist, not_le.2 hlow⟩)]
  · rw [dif_neg hlow, dif_pos (.inr (not_lt.1 hlow))]

theorem jumpCheck_ne_ok {k : Chan} {target : Byte} {e : Status} (h : k.jumpCheck target = .error e) : e ≠ .ok := by
  rintro rfl
  by_cases hplay : k.state.playing = false
  · rw [jumpCheck_of_not_playing target hplay] at h
    cases h
  · rw [jumpCheck_of_playing target hplay] at h
    split_ifs at h <;> cases h

/-! ### The jump on one channel -/

/-- Whether the target waits, as the rule of R75 reads it. -/
theorem Work.jumpWaiting_eq (c : ChanId) (j : EntryIx) (w : Work) :
    w.jumpWaiting c j = ⟨{ w.ch with
        entry := j, pass := 0#16, pos := 0, startRequest := !(w.ch.entryAt j).any Entry.wait || w.ch.advLatch,
        advLatch := w.ch.advLatch && !(w.ch.entryAt j).any Entry.wait, fifo := [], target := none,
        cursor := some ⟨j, 0#16, 0⟩ }, droppedFor w.burst fun d => decide (d = c), w.raised⟩ := by
  have hwaits : ∀ o : Option Entry, (match o with
      | some e => e.wait
      | none => false) = o.any Entry.wait := fun o => by cases o <;> rfl
  unfold Work.jumpWaiting
  dsimp only
  rw [Work.refetchFrom_eq]
  change Work.mk { (if !(match w.ch.entryAt j with
      | some e => e.wait
      | none => false) then _ else _ : Chan) with fifo := [], target := none, cursor := some ⟨j, 0#16, 0⟩ } _ _ = _
  rw [hwaits]
  cases (w.ch.entryAt j).any Entry.wait with
  | false => simp
  | true =>
    cases w.ch.advLatch <;> simp

theorem Work.jumpRedirect_raised (c : ChanId) (j : EntryIx) (w : Work) : (w.jumpRedirect c j).raised = w.raised := by
  unfold Work.jumpRedirect
  split
  · rfl
  · split <;> rfl

/-- The Fetcher redirected by a stored target (R110). -/
theorem Work.jumpRedirect_rule (c : ChanId) (j : EntryIx) (w : Work) :
    if w.ch.fifo.any Item.last then
      (∃ run it rest, SplitsAtEnd w.ch.fifo run it rest
        ∧ (w.jumpRedirect c j).ch = { w.ch with fifo := run ++ [it], cursor := some ⟨j, 0#16, 0⟩, target := none })
      ∧ (w.jumpRedirect c j).burst = droppedFor w.burst fun d => decide (d = c)
    else
      (w.jumpRedirect c j).burst = w.burst
        ∧ (CarriesEnd w.ch w.burst c →
            (w.jumpRedirect c j).ch = { w.ch with cursor := some ⟨j, 0#16, 0⟩, target := none })
        ∧ (¬ CarriesEnd w.ch w.burst c → (w.jumpRedirect c j).ch = { w.ch with target := some j }) := by
  have hcarries : CarriesEnd w.ch w.burst c ↔ carriesLast c w = true := (carriesLast_iff c w).symm
  rw [← afterPassRun_isSome]
  unfold Work.jumpRedirect
  cases hrest : afterPassRun w.ch.fifo with
  | some rest =>
    obtain ⟨run, it, hfifo, hrun, hlast, hpass⟩ := afterPassRun_some hrest
    rw [if_pos Option.isSome_some, dropBurst_eq, hpass]
    exact ⟨⟨run, it, rest, ⟨hfifo, hrun, hlast⟩, rfl⟩, rfl⟩
  | none =>
    rw [if_neg (by simp), hcarries]
    dsimp only
    by_cases hlast : carriesLast c w = true
    · rw [if_pos hlast]
      exact ⟨rfl, fun _ => rfl, fun h => absurd hlast h⟩
    · rw [if_neg hlast]
      exact ⟨rfl, fun h => absurd h hlast, fun _ => rfl⟩

theorem Work.jumpCommand_raised (c : ChanId) (j : EntryIx) (w : Work) : (w.jumpCommand c j).raised = w.raised := by
  unfold Work.jumpCommand
  split
  · rw [Work.jumpWaiting_eq]
  · exact Work.jumpRedirect_raised c j _

/-! ### JUMP -/

/-- JUMP before the arbiter judges the Fetcher's request. -/
def State.jumpAnswered (s : State) (p : Port) (ch target : Byte) : State :=
  match s.claimedChan p ch with
  | .error e => s.respond p Code.jump e []
  | .ok c =>
    match (s.chan c).jumpCheck target with
    | .error e => s.respond p Code.jump e []
    | .ok j =>
      (s.putWork c ((s.work c).jumpCommand c j)).respond p Code.jump .ok
        (putOpt putByte ((if (s.chan c).state = .waiting then none else (s.chan c).jump).map fun k => byteOfNat k.val))

theorem exec_jump {s : State} {p : Port} (ch target : Byte) (hl : s.Listening p) :
    ∃ ps, (s.took (.jump p ch target)).opened p = { s.took (.jump p ch target) with ports := ps }
      ∧ exec (.jump p ch target) s
        = .next ((State.jumpAnswered { s.took (.jump p ch target) with ports := ps } p ch target).judgedIfOk p) := by
  obtain ⟨ps, ho, hact⟩ := frame_acts (i := .jump p ch target) rfl hl
  refine ⟨ps, ho, congrArg Host.Outcome.next ((hact _).trans ?_)⟩
  generalize ({ s.took (.jump p ch target) with ports := ps } : State) = v
  unfold State.jumpAnswered
  cases hclaim : v.claimedChan p ch with
  | error e => exact (judgedIfOk_respond_ne (claimedChan_ne_ok hclaim) _ _ _ _).symm
  | ok c =>
    dsimp only
    cases hcheck : (v.chan c).jumpCheck target with
    | error e => exact (judgedIfOk_respond_ne (jumpCheck_ne_ok hcheck) _ _ _ _).symm
    | ok j => exact (judgedIfOk_respond_ok _ _ _ _).symm

theorem jumpAnswered_rule {s t : State} {p : Port} {ps : PerPort PortRec} {ch target : Byte}
    (ho : s.opened p = { s with ports := ps }) (ht : t = State.jumpAnswered { s with ports := ps } p ch target) :
    JumpRule s t p ch target := by
  have hrefused := respond_refused ho Code.jump
  refine onChannel_of ho ht fun c _ ht => ?_
  change t = match (s.chan c).jumpCheck target with
    | .error e => State.respond { s with ports := ps } p Code.jump e []
    | .ok j => (State.putWork { s with ports := ps } c ((s.work c).jumpCommand c j)).respond p Code.jump .ok
      (putOpt putByte ((if (s.chan c).state = .waiting then none else (s.chan c).jump).map fun k => byteOfNat k.val))
    at ht
  by_cases hplay : (s.chan c).state.playing = false
  · rw [if_pos hplay, ht, jumpCheck_of_not_playing target hplay]
    exact hrefused _ _
  rw [if_neg hplay]
  rw [jumpCheck_of_playing target hplay] at ht
  by_cases hstop : (s.chan c).stop = some .atPass ∨ (s.chan c).stop = some .immediate
  · rw [if_pos hstop, ht, if_pos hstop]
    exact hrefused _ _
  rw [if_neg hstop] at ht ⊢
  by_cases hj : (s.chan c).list.length ≤ target.toNat ∨ 64 ≤ target.toNat
  · rw [if_pos hj, ht, dif_pos hj]
    exact hrefused _ _
  rw [dif_neg hj] at ht
  rw [if_neg hj]
  obtain ⟨hchan, hother, hburst, hanswered, honly, hframe⟩ :=
    putWork_answered ho (Work.jumpCommand_raised c _ (s.work c)) ht
  refine ⟨⟨target.toNat, not_le.1 fun h => hj (.inr h)⟩, rfl, hother, honly, hframe, ?_⟩
  unfold FlushedBurst
  rw [hchan, hburst]
  unfold Work.jumpCommand
  by_cases hwait : (s.chan c).state = .waiting
  · rw [if_pos hwait, if_pos (show (s.work c).ch.state = _ from hwait), Work.jumpWaiting_eq]
    rw [if_pos hwait] at hanswered
    exact ⟨hanswered, rfl, rfl⟩
  · rw [if_neg hwait, if_neg (show ¬ (s.work c).ch.state = _ from hwait)]
    rw [if_neg hwait] at hanswered
    exact ⟨hanswered, Work.jumpRedirect_rule c _ { s.work c with ch := { s.chan c with jump := some _ } }⟩

/-- Settles O35: the checks refuse in order; a target taken in WAITING is where the channel stands, else it is stored and
the Fetcher redirected to it. -/
theorem jumps : Obligations.Jumps := by
  intro s p ch target hl
  obtain ⟨ps, ho, hexec⟩ := exec_jump ch target hl
  exact ⟨_, jumpAnswered_rule ho rfl, hexec⟩

end Sys2Proof.Machine
end

section
/-! ## SET-STATIC (R82, R83) -/

namespace Sys2Proof.Machine

/-! ### The operands (R173) -/

/-- A decoder names the bytes that are codes of its values. -/
def Names {α : Type} (code : α → Byte) (good : Byte → Bool) (f : Byte → Option α) : Prop :=
  ∀ b, (∀ x, f b = some x → code x = b ∧ good b = true) ∧ (f b = none → good b = false)

theorem lt_two_iff (b : Byte) : b.toNat < 2 ↔ b = 0#8 ∨ b = 1#8 := by
  bv_omega

/-- An enumeration of two values. -/
theorem names_two {α : Type} {code : α → Byte} {f : Byte → Option α} {x y : α} (hx : code x = 0#8) (hy : code y = 1#8)
    (hf : ∀ b, f b = if b = 0#8 then some x else if b = 1#8 then some y else none) :
    Names code (fun b => decide (b.toNat < 2)) f := by
  intro b
  rw [hf]
  by_cases h0 : b = 0#8
  · subst h0
    exact ⟨fun _ h => ⟨Option.some.inj h ▸ hx, rfl⟩, nofun⟩
  by_cases h1 : b = 1#8
  · subst h1
    exact ⟨fun _ h => ⟨Option.some.inj h ▸ hy, rfl⟩, nofun⟩
  rw [if_neg h0, if_neg h1]
  exact ⟨nofun, fun _ => decide_eq_false fun h => ((lt_two_iff b).1 h).elim h0 h1⟩

theorem names_subscription :
    Names Table.subscription (fun b => decide (b.toNat < 10 ∨ b = 0xFF#8)) subscriptionOf := by
  intro b
  unfold subscriptionOf
  refine ⟨fun x h => ?_, fun h => ?_⟩
  · split_ifs at h with hnone htrg hsyn ha hb <;> cases h
    · exact ⟨hnone.symm, by simp [hnone]⟩
    · exact ⟨by simp [Table.subscription, Table.source], by simp; omega⟩
    · refine ⟨?_, by simp; omega⟩
      have hn : 4 + (b.toNat - 4) = b.toNat := by omega
      simp [Table.subscription, Table.source, hn]
    · exact ⟨ha.symm, by simp [ha]⟩
    · exact ⟨hb.symm, by simp [hb]⟩
  · split_ifs at h with hnone htrg hsyn ha hb
    simp only [decide_eq_false_iff_not, not_or]
    exact ⟨by bv_omega, hnone⟩

section
variable {α : Type} {code : α → Byte} {good : Byte → Bool} {f : Byte → Option α}

theorem optOf_some (h : Names code good f) {o : Option Byte} {n : Option α} (ho : optOf f o = some n) :
    o.all good = true ∧ ∀ old, Table.Given code o old (n.getD old) := by
  cases o with
  | none =>
    cases ho
    exact ⟨rfl, fun _ => rfl⟩
  | some b =>
    obtain ⟨x, hx, rfl⟩ := Option.map_eq_some_iff.1 ho
    obtain ⟨hcode, hgood⟩ := (h b).1 x hx
    exact ⟨hgood, fun _ => hcode⟩

theorem optOf_of_all (h : Names code good f) {o : Option Byte} (ho : o.all good = true) : ∃ n, optOf f o = some n := by
  cases o with
  | none => exact ⟨none, rfl⟩
  | some b =>
    cases hb : f b with
    | none => exact absurd (((h b).2 hb).symm.trans ho) Bool.false_ne_true
    | some x => exact ⟨some x, congrArg (Option.map some) hb⟩

end

theorem clampOpt_eq {α : Type} (lo hi old : Nat) (value : α → Nat) (o : Option α) (h : lo ≤ hi) :
    clampOpt lo hi old (o.map value)
      = (numeric lo hi old (o.map value), o.any fun x => decide (value x < lo ∨ hi < value x)) := by
  cases o with
  | none => rfl
  | some x =>
    simp only [clampOpt, clampNat, numeric, Option.map_some, Option.any_some]
    split_ifs with hlow hhigh
    · simp [hlow]; omega
    · simp [hhigh]; omega
    · simp [hlow, hhigh]; omega

/-! ### The parameters written (R82) -/

/-- Check 4: every enumeration and source byte given is a named one. -/
def staticNamed (a : StaticArgs) : Bool :=
  let two := fun b : Byte => decide (b.toNat < 2)
  let source := fun b : Byte => decide (b.toNat < 10 ∨ b = 0xFF#8)
  a.interp.all two && a.combine.all two && a.endMode.all two && a.startSrc.all source && a.advSrc.all source
    && a.updSrc.all source

/-- A number given is out of its bounds. -/
def staticClamps (a : StaticArgs) : Bool :=
  a.divider.any (fun h => decide (h.toNat < 1 ∨ 4096 < h.toNat)) || a.prio.any fun b => decide (3 < b.toNat)

/-- Each parameter is the one given, at its nearest bound, or the old one. -/
structure StaticGiven (a : StaticArgs) (old n : StaticParams) : Prop where
  divider : n.divider = numeric 1 4096 old.divider (a.divider.map BitVec.toNat)
  interp : Table.Given Table.interp a.interp old.interp n.interp
  combine : Table.Given Table.combine a.combine old.combine n.combine
  endMode : Table.Given Table.endMode a.endMode old.endMode n.endMode
  idle : n.idle = a.idle.getD old.idle
  park : n.park = a.park.getD old.park
  prio : n.prio.val = numeric 0 3 old.prio.val (a.prio.map BitVec.toNat)
  startSrc : Table.Given Table.subscription a.startSrc old.startSrc n.startSrc
  advSrc : Table.Given Table.subscription a.advSrc old.advSrc n.advSrc
  updSrc : Table.Given Table.subscription a.updSrc old.updSrc n.updSrc

theorem names_interp : Names Table.interp (fun b => decide (b.toNat < 2)) interpOf := names_two rfl rfl fun _ => rfl

theorem names_combine : Names Table.combine (fun b => decide (b.toNat < 2)) combineOf := names_two rfl rfl fun _ => rfl

theorem names_endMode : Names Table.endMode (fun b => decide (b.toNat < 2)) endModeOf := names_two rfl rfl fun _ => rfl

theorem StaticParams.write_none {old : StaticParams} {a : StaticArgs} (h : old.write a = none) : staticNamed a = false := by
  by_contra hnamed
  simp only [staticNamed, Bool.not_eq_false, Bool.and_eq_true] at hnamed
  obtain ⟨⟨⟨⟨⟨hinterp, hcombine⟩, hend⟩, hstart⟩, hadv⟩, hupd⟩ := hnamed
  obtain ⟨_, e1⟩ := optOf_of_all names_interp hinterp
  obtain ⟨_, e2⟩ := optOf_of_all names_combine hcombine
  obtain ⟨_, e3⟩ := optOf_of_all names_endMode hend
  obtain ⟨_, e4⟩ := optOf_of_all names_subscription hstart
  obtain ⟨_, e5⟩ := optOf_of_all names_subscription hadv
  obtain ⟨_, e6⟩ := optOf_of_all names_subscription hupd
  unfold StaticParams.write at h
  rw [e1, e2, e3, e4, e5, e6] at h
  cases h

theorem StaticParams.write_some {old n : StaticParams} {a : StaticArgs} {clamped : Bool}
    (h : old.write a = some (n, clamped)) : staticNamed a = true ∧ clamped = staticClamps a ∧ StaticGiven a old n := by
  unfold StaticParams.write at h
  split at h
  case h_2 => cases h
  case h_1 e1 e2 e3 e4 e5 e6 =>
    obtain ⟨hinterp, ginterp⟩ := optOf_some names_interp e1
    obtain ⟨hcombine, gcombine⟩ := optOf_some names_combine e2
    obtain ⟨hend, gend⟩ := optOf_some names_endMode e3
    obtain ⟨hstart, gstart⟩ := optOf_some names_subscription e4
    obtain ⟨hadv, gadv⟩ := optOf_some names_subscription e5
    obtain ⟨hupd, gupd⟩ := optOf_some names_subscription e6
    have hprio := (clampOpt_range (lo := 0) (hi := 3) (old := old.prio.val) ⟨Nat.zero_le _, by omega⟩
      (a.prio.map BitVec.toNat)).2
    rw [clampOpt_eq _ _ _ _ _ (by decide)] at hprio
    rw [clampOpt_eq _ _ _ _ _ (by decide), clampOpt_eq _ _ _ _ _ (by decide)] at h
    cases h
    refine ⟨?_, ?_, ⟨rfl, ginterp _, gcombine _, gend _, rfl, rfl, ?_, gstart _, gadv _, gupd _⟩⟩
    · simp only [staticNamed, hinterp, hcombine, hend, hstart, hadv, hupd, Bool.and_self]
    · simp [staticClamps]
    · exact Nat.mod_eq_of_lt (Nat.lt_succ_of_le hprio)

/-! ### The output level (R83) -/

theorem Chan.writeStatic_stat (k : Chan) (n : StaticParams) : (k.writeStatic n).stat = n := by
  unfold Chan.writeStatic
  dsimp only
  split_ifs <;> rfl

theorem Chan.writeStatic_rule (k : Chan) (n : StaticParams) :
    (if k.state = .idle ∧ n.idle ≠ k.stat.idle then
        (k.writeStatic n).out = n.idle ∧ ((k.writeStatic n).lane.toNat : Int) = n.idle.toInt + 32768
      else if k.state = .halted ∧ n.park ≠ k.stat.park then
        (k.writeStatic n).out = n.park ∧ ((k.writeStatic n).lane.toNat : Int) = n.park.toInt + 32768
      else (k.writeStatic n).out = k.out ∧ (k.writeStatic n).lane = k.lane)
    ∧ { k.writeStatic n with stat := k.stat, out := k.out, lane := k.lane } = k := by
  obtain ⟨hidle, hlane, -⟩ := ({ k with stat := n } : Chan).place_spec n.idle
  obtain ⟨hpark, hlane', -⟩ := ({ k with stat := n } : Chan).place_spec n.park
  unfold Chan.writeStatic
  dsimp only
  split_ifs
  · exact ⟨⟨hidle, hlane⟩, rfl⟩
  · exact ⟨⟨hpark, hlane'⟩, rfl⟩
  · exact ⟨⟨rfl, rfl⟩, rfl⟩

theorem subscriptionCode_eq (o : Option Source) : subscriptionCode o = Table.subscription o := by
  rcases o with - | (n | n | (- | -)) <;> rfl

theorem StaticParams.bytes_eq (n : StaticParams) : n.bytes = Table.static n := by
  have hinterp : n.interp.code = Table.interp n.interp := by cases n.interp <;> rfl
  have hcombine : n.combine.code = Table.combine n.combine := by cases n.combine <;> rfl
  have hend : n.endMode.code = Table.endMode n.endMode := by cases n.endMode <;> rfl
  simp [StaticParams.bytes, Table.static, hinterp, hcombine, hend, subscriptionCode_eq]

/-! ### SET-STATIC -/

/-- Check 5. -/
theorem partnerBound_iff (s : State) (c : ChanId) (a : StaticArgs) :
    ((a.divider.isSome && s.partnerBound c) = true) = (a.divider.isSome = true ∧ (s.chan (partner c)).state.active = true
      ∧ (s.chan (partner c)).stat.combine = .addPartner) := by
  simp [State.partnerBound]

/-- Settles O27: the checks refuse in order; each parameter given is written at its nearest bound, and a changed level goes to
the lane. -/
theorem setsStatics : Obligations.SetsStatics := by
  intro s p ch a hl
  refine exec_answers (i := .setStatic p ch a) rfl hl rfl fun ps t ho ht => ?_
  generalize s.took _ = w at ho ht ⊢
  have hrefused := respond_refused ho Code.setStatic
  refine onChannel_of ho ht fun c _ ht => ?_
  change t = match w.staticCheck c a with
    | .error e => State.respond { w with ports := ps } p Code.setStatic e []
    | .ok (n, clamped) => (State.setChan { w with ports := ps } c ((w.chan c).writeStatic n)).respond p Code.setStatic
      (if clamped then .clamped else .ok) n.bytes at ht
  change if (w.chan c).state ≠ .idle ∧ (w.chan c).state ≠ .halted then _
    else if staticNamed a = false then _ else _
  unfold State.staticCheck at ht
  simp only [ChanState.active_iff] at ht
  by_cases hactive : (w.chan c).state ≠ .idle ∧ (w.chan c).state ≠ .halted
  · rw [if_pos hactive, ht, if_pos hactive]
    exact hrefused _ _
  rw [if_neg hactive] at ht ⊢
  cases hwrite : (w.chan c).stat.write a with
  | none =>
    rw [hwrite] at ht
    rw [if_pos (StaticParams.write_none hwrite), ht]
    exact hrefused _ _
  | some r =>
    obtain ⟨n, clamped⟩ := r
    obtain ⟨hnamed, hclamp, hgiven⟩ := StaticParams.write_some hwrite
    rw [hwrite] at ht
    rw [if_neg (by rw [hnamed]; decide)]
    dsimp only at ht
    rw [ite_congr (partnerBound_iff w c a) (fun _ => rfl) (fun _ => rfl)] at ht
    by_cases hbound : a.divider.isSome ∧ (w.chan (partner c)).state.active
        ∧ (w.chan (partner c)).stat.combine = .addPartner
    · rw [if_pos hbound, ht, if_pos hbound]
      exact hrefused _ _
    rw [if_neg hbound] at ht ⊢
    obtain ⟨hchan, hother, hanswered, hrest⟩ := setChan_answered ho ht
    obtain ⟨hlevel, hframe⟩ := (w.chan c).writeStatic_rule n
    rw [hchan, Chan.writeStatic_stat]
    rw [n.bytes_eq, hclamp] at hanswered
    exact ⟨hgiven.divider, hgiven.interp, hgiven.combine, hgiven.endMode, hgiven.idle, hgiven.park, hgiven.prio,
      hgiven.startSrc, hgiven.advSrc, hgiven.updSrc, hlevel, hframe, hother, hanswered, hrest⟩

end Sys2Proof.Machine
end

section
/-! ## The Sample Clock Monitor (R78 to R81) -/

namespace Sys2Proof.Machine

theorem exec_clockLost {s : State} (h : s.monitor.clock = .present) : exec .clockLost s = .next s.clockIsLost := by
  change Host.Outcome.next (match s.monitor.clock with
    | .present => s.clockIsLost
    | .lost => s) = _
  rw [h]

theorem exec_runLengthReset {s : State} (h : s.monitor.clock = .lost) :
    exec .runLengthReset s = .next { s with monitor := s.monitor.still .lost } := by
  change Host.Outcome.next (match s.monitor.clock with
    | .lost => { s with monitor := s.monitor.still .lost }
    | .present => s) = _
  rw [h]

theorem exec_clockRestored {s : State} (h : s.monitor.clock = .lost) : exec .clockRestored s = .next s.clockIsBack := by
  change Host.Outcome.next (match s.monitor.clock with
    | .lost => s.clockIsBack
    | .present => s) = _
  rw [h]

theorem clockIsBack_rule (s : State) : ClockBackRule s s.clockIsBack := by
  obtain ⟨hport, hrest⟩ := State.raiseBoth_spec
    { s with monitor := s.monitor.restored, ticks := Vector.replicate 8 .noTick } .device .clockRestored
  have hticks : s.clockIsBack.ticks = Vector.replicate 8 .noTick := (congrArg State.ticks hrest :)
  refine ⟨(congrArg State.monitor hrest :), fun c => ?_, hport,
    (congrArg (fun x : State => { x with monitor := s.monitor, ticks := s.ticks, ports := s.ports }) hrest :)⟩
  unfold State.tickOf
  rw [hticks]
  exact get_replicate _ c

theorem sclkRisingEdge_rule (s : State) : ∃ t, exec .sclkRisingEdge s = .next t ∧ EdgeRule s.finishEdge t := by
  refine ⟨_, rfl, ?_⟩
  generalize s.finishEdge = u
  unfold EdgeRule
  dsimp only
  cases u.monitor.clock with
  | present =>
    refine ⟨rfl, rfl, rfl, fun c => ?_⟩
    unfold State.tickOf State.ticksAt
    rw [Vector.get_eq_getElem, Vector.getElem_ofFn]
  | lost => exact ⟨rfl, rfl, rfl, get_replicate _⟩

/-- What a period of REFCLK does is what the event does that the monitor judges (R78). -/
theorem step_present {s : State} (hq : s.pending = []) (h : s.monitor.clock = .present) :
    step s = if 250 ≤ s.monitor.sinceEdge + 1 then exec .clockLost s
      else .next { s with monitor := { s.monitor with sinceEdge := s.monitor.sinceEdge + 1 } } := by
  rw [step_nil s hq, exec_clockLost h]
  unfold State.refclkPeriod
  dsimp only
  rw [h]
  split_ifs <;> rfl

theorem step_lost {s : State} (hq : s.pending = []) (h : s.monitor.clock = .lost) :
    step s = if 250 ≤ s.monitor.sinceEdge + 1 then exec .runLengthReset s
      else if s.monitor.sclkRuns = true then
        if 50000 ≤ s.monitor.runLength + 1 then
          exec .clockRestored { s with monitor := { s.monitor with sinceEdge := s.monitor.sinceEdge + 1 } }
        else .next { s with
          monitor := { s.monitor with sinceEdge := s.monitor.sinceEdge + 1, runLength := s.monitor.runLength + 1 } }
      else .next { s with monitor := { s.monitor with sinceEdge := s.monitor.sinceEdge + 1 } } := by
  have hback : exec .clockRestored { s with monitor := { s.monitor with sinceEdge := s.monitor.sinceEdge + 1 } }
      = .next (State.clockIsBack { s with monitor := { s.monitor with sinceEdge := s.monitor.sinceEdge + 1 } }) :=
    exec_clockRestored h
  rw [step_nil s hq, exec_runLengthReset h, hback]
  unfold State.refclkPeriod
  dsimp only
  rw [h]
  split_ifs <;> rfl

/-- Settles O43: the move to PRESENT, the edges of SCLK, and what each period of REFCLK judges. -/
theorem clockIsJudged : Obligations.ClockIsJudged := by
  refine ⟨fun s h => ⟨⟨_, exec_clockRestored h, clockIsBack_rule s⟩, _, exec_runLengthReset h, rfl, rfl⟩,
    sclkRisingEdge_rule, fun s hq => ?_⟩
  refine ⟨fun h hlate => ?_, fun h hsoon => ?_, fun h hlate => ?_, fun h hsoon hruns => ?_, fun h hsoon hstill => ?_⟩
  · rw [step_present hq h, if_pos hlate]
  · rw [step_present hq h, if_neg (not_le.2 hsoon)]
  · rw [step_lost hq h, if_pos hlate]
  · rw [step_lost hq h, if_neg (not_le.2 hsoon), if_pos hruns]
    split_ifs <;> rfl
  · rw [step_lost hq h, if_neg (not_le.2 hsoon), if_neg (by rw [hstill]; decide)]

end Sys2Proof.Machine
end

section
/-! ## The clock judged lost (R76, R80) -/

namespace Sys2Proof.Machine

/-! ### Entering HALTED -/

theorem Chan.toHalted_rule (k : Chan) (cause : FaultCause) : HaltedRule k (applied (k.toHalted cause) true).1 cause := by
  obtain ⟨-, hlane, -⟩ := k.toIdle.place_spec k.stat.park
  have hstaged : (k.toHalted cause).staged.isEmpty = k.staged.isEmpty := rfl
  unfold applied
  rw [hstaged]
  cases hempty : k.staged.isEmpty with
  | false =>
    have hfull : ¬ k.staged.isEmpty = true := by rw [hempty]; decide
    exact ⟨rfl, rfl, rfl, hlane, rfl, rfl, rfl, rfl, rfl, rfl, rfl, rfl, rfl, rfl, rfl, rfl, rfl, rfl, rfl, rfl, rfl, rfl,
      rfl, rfl, rfl, rfl, rfl, rfl, fun _ => ⟨rfl, rfl⟩, fun h => absurd h hfull⟩
  | true =>
    exact ⟨rfl, rfl, rfl, hlane, rfl, rfl, rfl, rfl, rfl, rfl, rfl, rfl, rfl, rfl, rfl, rfl, rfl, rfl, rfl, rfl, rfl, rfl,
      rfl, rfl, rfl, rfl, rfl, rfl, fun h => absurd (hempty.symm.trans h) (by decide), fun _ => ⟨rfl, rfl⟩⟩

/-- What entering HALTED raises. -/
theorem Chan.toHalted_raised (k : Chan) (cause : FaultCause) :
    .fault :: (applied (k.toHalted cause) true).2 = Kind.fault :: (if k.staged.isEmpty = true then [] else [.applied]) := by
  have hstaged : (k.toHalted cause).staged.isEmpty = k.staged.isEmpty := rfl
  unfold applied
  rw [hstaged]
  cases k.staged.isEmpty <;> rfl

/-! ### One channel -/

/-- A channel when the clock is judged lost (R80). -/
def Chan.unclocked (k : Chan) : Chan :=
  match k.state with
  | .running | .waiting | .stopping => (applied (k.toHalted .clockLost) true).1
  | .arming | .armed => ({ k with startPending := false, startLatch := false }).place k.stat.idle
  | .idle => k.place k.stat.idle
  | .halted => k

theorem Work.halt_flushes (c : ChanId) (cause : FaultCause) (w : Work) :
    w.halt c cause = ⟨(applied (w.ch.toHalted cause) true).1, droppedFor w.burst fun d => decide (d = c),
      w.raised ++ .fault :: (if w.ch.staged.isEmpty = true then [] else [.applied])⟩ := by
  rw [w.halt_eq, ← Chan.toHalted_raised w.ch cause]
  unfold Work.withRecord
  simp only [← dropBurst_eq, List.append_assoc, List.singleton_append]

theorem Work.loseClock_eq (c : ChanId) (w : Work) :
    w.loseClock c = ⟨w.ch.unclocked, droppedFor w.burst fun d => decide (d = c) && w.ch.state.playing,
      w.raised ++ haltCauses w.ch⟩ := by
  obtain ⟨k, o, raised⟩ := w
  have hflush : (droppedFor o fun d => decide (d = c) && true) = droppedFor o fun d => decide (d = c) := by
    simp only [Bool.and_true]
  have hkeep : (droppedFor o fun d => decide (d = c) && false) = o := droppedFor_none _ fun d => Bool.and_false _
  cases k with
  | mk state =>
    cases state with
    | running | waiting | stopping =>
      dsimp only [ChanState.playing]
      rw [hflush]
      exact Work.halt_flushes c .clockLost _
    | idle | arming | armed | halted =>
      dsimp only [ChanState.playing]
      rw [hkeep, show haltCauses _ = [] from rfl, List.append_nil]
      rfl

/-! ### Every channel -/

theorem raiseIn_keeps {l : List EventEntry} {e : EventEntry} (h : e ∈ l) (src : EventSource) (k : Kind) (d : Detail) :
    ∃ e' ∈ raiseIn l src k d, e'.source = e.source ∧ e'.kind = e.kind := by
  induction l with
  | nil => cases h
  | cons x r ih =>
    unfold raiseIn
    rcases List.mem_cons.1 h with rfl | hr
    · split_ifs
      · exact ⟨_, List.mem_cons_self, rfl, rfl⟩
      · exact ⟨_, List.mem_cons_of_mem _ List.mem_cons_self, rfl, rfl⟩
      · exact ⟨_, List.mem_cons_self, rfl, rfl⟩
    · obtain ⟨e', he', hkey⟩ := ih hr
      split_ifs
      · exact ⟨e, List.mem_cons_of_mem _ hr, rfl, rfl⟩
      · exact ⟨e, List.mem_cons_of_mem _ (List.mem_cons_of_mem _ hr), rfl, rfl⟩
      · exact ⟨e', List.mem_cons_of_mem _ he', hkey⟩

/-- An event set has an entry of a source and a kind. -/
def Told (l : List EventEntry) (src : EventSource) (k : Kind) : Prop := ∃ e ∈ l, e.source = src ∧ e.kind = k

theorem Told.raiseIn {l : List EventEntry} {src : EventSource} {k : Kind} (h : Told l src k) (src' : EventSource)
    (k' : Kind) (d : Detail) : Told (Machine.raiseIn l src' k' d) src k := by
  obtain ⟨e, he, hsrc, hkind⟩ := h
  obtain ⟨e', he', hsrc', hkind'⟩ := raiseIn_keeps he src' k' d
  exact ⟨e', he', hsrc'.trans hsrc, hkind'.trans hkind⟩

theorem Told.raised {l : List EventEntry} {src : EventSource} {k : Kind} (h : Told l src k) (c : ChanId) (ks : List Kind) :
    Told (ks.foldl (fun l k => Machine.raiseIn l (.chan c) k .nothing) l) src k := by
  induction ks generalizing l with
  | nil => exact h
  | cons k' r ih => exact ih (h.raiseIn _ _ _)

theorem Told.allRaised {l : List EventEntry} {src : EventSource} {k : Kind} (h : Told l src k)
    (causes : ChanId → List Kind) (cs : List ChanId) :
    Told (cs.foldl (fun l c => (causes c).foldl (fun l k => Machine.raiseIn l (.chan c) k .nothing) l) l) src k := by
  induction cs generalizing l with
  | nil => exact h
  | cons c r ih => exact ih (h.raised c (causes c))

/-- The first cause that a channel of the list raises is told. -/
theorem told_of_causes {causes : ChanId → List Kind} {c : ChanId} {k : Kind} {ks : List Kind} (hk : causes c = k :: ks)
    {cs : List ChanId} (hc : c ∈ cs) (l : List EventEntry) :
    Told (cs.foldl (fun l c => (causes c).foldl (fun l k => Machine.raiseIn l (.chan c) k .nothing) l) l) (.chan c) k := by
  obtain ⟨before, after, rfl⟩ := List.append_of_mem hc
  rw [List.foldl_append, List.foldl_cons]
  refine Told.allRaised ?_ causes after
  rw [hk]
  exact Told.raised (raiseIn_has _ _ _ _) c ks

theorem haltCauses_playing {k : Chan} (h : k.state.playing = true) :
    haltCauses k = .fault :: (if k.staged.isEmpty = true then [] else [.applied]) := if_pos h

/-- What the loss of the clock makes of the channels, the burst in flight and the event sets. -/
theorem State.loseAll_parts (s : State) :
    (∀ c, s.loseAll.chan c = (s.chan c).unclocked)
      ∧ s.loseAll.burst = (droppedFor s.burst fun c => (s.chan c).state.playing)
      ∧ (∀ p, s.loseAll.port p = { s.port p with
          events := (List.finRange 8).foldl (fun l c => (haltCauses (s.chan c)).foldl
              (fun l k => raiseIn l (.chan c) k .nothing) l) (s.port p).events })
      ∧ { s.loseAll with chans := s.chans, burst := s.burst, ports := s.ports } = s := by
  obtain ⟨hchan, hburst, hport, hrest⟩ := foldl_putWork_spec Chan.unclocked (fun k => k.state.playing) haltCauses
    (fun c w => w.loseClock c) (fun c w => w.loseClock_eq c) (List.nodup_finRange 8) s
  refine ⟨fun c => (hchan c).trans (if_pos (List.mem_finRange c)), hburst.trans ?_, hport, hrest⟩
  simp only [List.mem_finRange, decide_true, Bool.true_and]

theorem State.lost_parts (s : State) :
    (∀ c, s.lost.chan c = (s.chan c).unclocked)
      ∧ s.lost.burst = (droppedFor s.burst fun c => (s.chan c).state.playing)
      ∧ (∀ p, s.lost.port p = { s.port p with
          events := (List.finRange 8).foldl (fun l c => (haltCauses (s.chan c)).foldl
              (fun l k => raiseIn l (.chan c) k .nothing) l) (raiseIn (s.port p).events .device .clockLost .nothing) })
      ∧ { s.lost with chans := s.chans, ports := s.ports, monitor := s.monitor, ticks := s.ticks, burst := s.burst } = s := by
  obtain ⟨hport1, hrest1⟩ := State.raiseBoth_spec
    { s with monitor := s.monitor.still .lost, ticks := Vector.replicate 8 .noTick } .device .clockLost
  unfold State.lost
  generalize State.raiseBoth _ _ _ = v at hport1 hrest1
  obtain ⟨hchan, hburst, hport, hrest⟩ := v.loseAll_parts
  generalize v.loseAll = u at hchan hburst hport hrest
  have hv : ∀ c, v.chan c = s.chan c := fun c => (congrArg (fun x : State => x.chan c) hrest1 :)
  have hvburst : v.burst = s.burst := (congrArg State.burst hrest1 :)
  simp only [hv] at hchan hburst hport
  refine ⟨hchan, hvburst ▸ hburst, fun p => (hport p).trans ?_, ?_⟩
  · rw [hport1]
    rfl
  · have h := congrArg (fun x : State => { x with
      chans := s.chans, ports := s.ports, monitor := s.monitor, ticks := s.ticks, burst := s.burst }) hrest
    exact h.trans (congrArg (fun x : State => { x with
      chans := s.chans, ports := s.ports, monitor := s.monitor, ticks := s.ticks, burst := s.burst }) hrest1)

theorem State.lost_rule (s : State) : ClockLostRule s s.lost := by
  obtain ⟨hmonitor, hticks, -, -⟩ := s.lost_spec
  obtain ⟨hchan, hburst, hport, hrest⟩ := s.lost_parts
  refine ⟨hmonitor, fun c => ?_, fun c => ?_, fun p => ⟨?_, fun c hplay => ?_, hport p⟩, hburst, hrest⟩
  · exact (congrArg (fun v : Vector TickStatus 8 => v.get c) hticks).trans (get_replicate _ c)
  · rw [hchan]
    generalize s.chan c = k
    cases k with
    | mk state =>
      cases state with
      | running | waiting | stopping => exact Chan.toHalted_rule _ .clockLost
      | idle | arming | armed =>
        obtain ⟨hout, hlane, hframe⟩ := Chan.place_spec _ _
        exact ⟨hout, hlane, hframe⟩
      | halted => rfl
  · rw [hport]
    exact Told.allRaised (raiseIn_has _ _ _ _) _ _
  · rw [hport]
    exact told_of_causes (causes := fun c => haltCauses (s.chan c)) (haltCauses_playing hplay) (List.mem_finRange c) _

theorem State.clockIsLost_delivered (s : State) : LinesDelivered s.finishEdge s.finishEdge.lost s.clockIsLost := by
  have h : s.clockIsLost = s.finishEdge.deliverLines s.finishEdge.lost := by
    unfold State.clockIsLost
    generalize s.finishEdge = u
    rfl
  rw [h]
  generalize s.finishEdge = u
  rfl

/-- Settles O42: channels in play halt, the others are put to their levels, and the lines that fell are delivered. -/
theorem clockLoss : Obligations.ClockLoss :=
  fun s h => ⟨s.finishEdge.lost, s.clockIsLost, exec_clockLost h, s.finishEdge.lost_rule, s.clockIsLost_delivered⟩

end Sys2Proof.Machine
end

section
/-! ## The two parts of a tick, as the rules of R58 state them -/

namespace Sys2Proof.Machine

/-! ### The pass end (R69, R107, R109) -/

theorem Work.dropPass_rule (c : ChanId) (w : Work) : DropRule c w (w.dropPass c) := by
  have hcarries : CarriesEnd w.ch w.burst c ↔ carriesLast c w = true := (carriesLast_iff c w).symm
  unfold DropRule
  dsimp only
  rw [← afterPassRun_isSome, hcarries]
  unfold Work.dropPass
  cases hrest : afterPassRun w.ch.fifo with
  | some rest =>
    obtain ⟨run, it, hfifo, hrun, hlast, -⟩ := afterPassRun_some hrest
    rw [if_pos Option.isSome_some]
    exact ⟨run, it, rest, ⟨hfifo, hrun, hlast⟩, rfl⟩
  | none =>
    rw [if_neg (by simp), ← dropBurst_eq]
    dsimp only
    refine ⟨rfl, rfl, fun h => ?_, fun cur hcur hlast => ?_⟩
    · split_ifs with hlast
      · rfl
      · rw [h.resolve_left hlast]
    · rw [if_neg hlast, hcur]
      exact cursorPastPass_rule _ cur

theorem Work.passEnd_rule (c : ChanId) (L : Nat) (w : Work) : PassEndRule c L w (w.passEnd c L) := by
  have hframe := w.dropPass_frame c
  have hstalled : (w.dropPass c).ch.passStalled = w.ch.passStalled := (congrArg Chan.passStalled hframe :)
  have hconsec : (w.dropPass c).ch.consec = w.ch.consec := (congrArg Chan.consec hframe :)
  refine ⟨_, w.dropPass_rule c, ?_⟩
  rw [w.passEnd_eq, ← hstalled, ← hconsec]
  rfl

/-! ### A computed tick (R92 to R98) -/

theorem scaledAt_eq (k : Chan) (a b : Sample) : k.scaledAt a b = scaledOf k a b := by
  unfold Chan.scaledAt scaledOf scale interpolate posFrac
  cases k.stat.interp <;> rfl

theorem sumWith_eq (k : Chan) (a b : Sample) (h : Int) :
    sumWith k.stat.combine (scaledOf k a b) k.live.offset.toInt h = sumOf k a b h := by
  unfold sumWith sumOf
  cases k.stat.combine <;> rfl

theorem saturate_eq (v : Int) : saturate v = max (-32768) (min 32767 v) := by
  unfold saturate
  omega

theorem Chan.place_rule (k : Chan) (v : Sample) : PlacedRule k (k.place v) v.toInt := by
  obtain ⟨hout, hlane, hframe⟩ := k.place_spec v
  exact ⟨congrArg BitVec.toInt hout, hlane, hframe⟩

theorem toInt_ofInt_saturate (v : Int) : (BitVec.ofInt 16 (saturate v)).toInt = saturate v := by
  rw [saturate_eq]
  exact BitVec.toInt_ofInt_eq_self (by decide) (by omega) (by omega)

/-- The clip episode of a computed tick (R97). -/
theorem Work.clipTick_eq (clamped : Bool) (w : Work) :
    w.clipTick clamped = ⟨{ w.ch with
        clipOpen := clamped, clipCount := if clamped = true then min 65535 (w.ch.clipCount + 1) else w.ch.clipCount },
      w.burst, w.raised ++ if clamped = true ∧ w.ch.clipOpen = false then [.clip] else []⟩ := by
  unfold Work.clipTick
  cases clamped with
  | false => exact congrArg (Work.mk _ w.burst) (List.append_nil _).symm
  | true =>
    cases hopen : w.ch.clipOpen with
    | false => rfl
    | true => exact congrArg (Work.mk _ w.burst) (List.append_nil _).symm

/-- What a computed tick makes of the channel before the value is placed, with what it places. -/
theorem Work.compute_rule (a b : Sample) (h : Int) (w : Work) :
    let k := w.ch
    let v := sumOf k a b h
    let x := max (-32768) (min 32767 v)
    PlacedRule { k with
        scaled := scaledOf k a b, underrun := false, pos := k.pos + k.live.step, clipOpen := decide (x ≠ v),
        clipCount := if x = v then k.clipCount else min 65535 (k.clipCount + 1),
        mk1 := k.mk1.countTick.compareLevel x k.live.th1.toInt, mk2 := k.mk2.countTick.compareLevel x k.live.th2.toInt }
        (w.compute a b h).ch x
      ∧ (w.compute a b h).raised = w.raised ++ (if x ≠ v ∧ k.clipOpen = false then [.clip] else [])
      ∧ (w.compute a b h).burst = w.burst := by
  unfold Work.compute
  dsimp only
  rw [scaledAt_eq, sumWith_eq, Work.clipTick_eq, ← saturate_eq]
  generalize sumOf w.ch a b h = v
  have hlevel := toInt_ofInt_saturate v
  obtain ⟨-, hlane, -⟩ := w.ch.place_spec (BitVec.ofInt 16 (saturate v))
  refine ⟨⟨hlevel, hlane.trans (by rw [hlevel]), ?_⟩, ?_, rfl⟩
  · by_cases hx : saturate v = v
    · simp only [hx, ne_eq, not_true_eq_false, decide_false, if_true, if_false, Bool.false_eq_true]
      rfl
    · simp only [hx, ne_eq, not_false_eq_true, decide_true, if_true, if_false]
      rfl
  · simp only [decide_eq_true_eq]

end Sys2Proof.Machine
end

section
/-! ## Output ticks (R58) -/

namespace Sys2Proof.Machine

theorem Work.stall_eq (w : Work) :
    w.stall = ⟨{ w.ch with
        mk1 := w.ch.mk1.countTick, mk2 := w.ch.mk2.countTick, passStalled := true, underrun := true,
        consec := if w.ch.underrun = true then w.ch.consec else min 3 (w.ch.consec + 1),
        totalUnder := if w.ch.underrun = true then w.ch.totalUnder else min 65535 (w.ch.totalUnder + 1) },
      w.burst, w.raised ++ if w.ch.underrun = true then [] else [.underrun]⟩ := by
  unfold Work.stall
  by_cases hopen : w.ch.underrun = true
  · simp only [hopen, if_true, List.append_nil]
    rw [← hopen]
    rfl
  · simp only [hopen]
    rfl

/-! ### The first part -/

/-- The pair that the rules fetch is the one that the tick fetches. -/
def Chan.pairAt (k : Chan) (segs : Vector SegRec 256) : Option (Sample × Sample) :=
  ({ k with fifo := dropBelow (k.pos / 65536) k.fifo }).fetchPair (lengthOf segs k k.entry)

/-- A tick whose beginning is known. -/
def Work.wordAfter (segs : Vector SegRec 256) (h : Int) (b : Work) (phase : Phase) : Work × Rest :=
  match phase with
  | .idleWord => ({ b with ch := b.ch.place b.ch.stat.idle }, .nothing)
  | .parkWord => ({ b with ch := b.ch.place b.ch.stat.park }, .nothing)
  | .stopNow => ({ b with ch := b.ch.place b.ch.stat.idle }, .stop)
  | .hold => ({ b with ch := b.ch.countMarkers }, .nothing)
  | .play =>
    match b.ch.pairAt segs with
    | some (a, a') => (b.consult.compute a a' h, .moved)
    | none =>
      (b.consult.stall, if !b.consult.ch.underrun && decide (3 ≤ b.consult.stall.ch.consec) then .starve else .nothing)

theorem Work.tickWord_eq (segs : Vector SegRec 256) (h : Int) (w : Work) :
    w.tickWord segs h = w.beginTick.1.wordAfter segs h w.beginTick.2 := by
  unfold Work.tickWord
  generalize w.beginTick = r
  obtain ⟨b, phase⟩ := r
  cases phase <;> rfl

theorem Work.wordAfter_rule (segs : Vector SegRec 256) (h : Int) (b : Work) (phase : Phase) :
    WordRule segs h b phase (b.wordAfter segs h phase).1 := by
  unfold WordRule
  cases phase with
  | idleWord | parkWord | stopNow => exact ⟨rfl, Chan.place_rule _ _, rfl⟩
  | hold => exact ⟨rfl, rfl, rfl⟩
  | play =>
    unfold Work.wordAfter
    dsimp only
    rw [show ({ b.ch with
        fifo := dropBelow (b.ch.pos / 65536) b.ch.fifo, mk1 := b.ch.mk1.countTick, mk2 := b.ch.mk2.countTick } :
          Chan).fetchPair (lengthOf segs b.ch b.ch.entry) = b.ch.pairAt segs from rfl]
    cases b.ch.pairAt segs with
    | some r =>
      obtain ⟨a, a'⟩ := r
      obtain ⟨hplaced, hraised, hburst⟩ := Work.compute_rule a a' h b.consult
      exact ⟨hburst, hplaced, hraised⟩
    | none =>
      dsimp only
      rw [Work.stall_eq]
      exact ⟨rfl, rfl, rfl⟩

/-! ### The second part -/

theorem Work.halt_rule (c : ChanId) (cause : FaultCause) (w : Work) :
    HaltedRule w.ch (w.halt c cause).ch cause
      ∧ (w.halt c cause).burst = (droppedFor w.burst fun d => decide (d = c))
      ∧ (w.halt c cause).raised = w.raised ++ .fault :: if w.ch.staged.isEmpty = true then [] else [.applied] := by
  rw [Work.halt_flushes]
  exact ⟨Chan.toHalted_rule _ _, rfl, rfl⟩

/-- A stalled tick that starves the channel (R108). -/
theorem starves_iff (w : Work) :
    (!w.ch.underrun && decide (3 ≤ w.stall.ch.consec)) = true ↔ w.ch.underrun = false ∧ 2 ≤ w.ch.consec := by
  rw [w.stall_eq]
  cases w.ch.underrun <;> simp

theorem Work.tickEnd_rule (segs : Vector SegRec 256) (h : Int) (c : ChanId) (b : Work) (phase : Phase) :
    let r := b.wordAfter segs h phase
    EndRule segs c b.ch phase { r.1 with raised := [] } (({ r.1 with raised := [] } : Work).tickEnd segs c r.2) := by
  unfold EndRule
  cases phase with
  | idleWord | parkWord | hold => rfl
  | stopNow => exact ⟨_, Work.enterIdle_rule c _, rfl⟩
  | play =>
    unfold Work.wordAfter
    dsimp only
    rw [show ({ b.ch with fifo := dropBelow (b.ch.pos / 65536) b.ch.fifo } : Chan).fetchPair
      (lengthOf segs b.ch b.ch.entry) = b.ch.pairAt segs from rfl]
    cases b.ch.pairAt segs with
    | some r =>
      obtain ⟨a, a'⟩ := r
      obtain ⟨⟨-, -, hframe⟩, -⟩ := Work.compute_rule a a' h b.consult
      have hlist : (b.consult.compute a a' h).ch.list = b.ch.list := (congrArg Chan.list hframe :)
      have hentry : (b.consult.compute a a' h).ch.entry = b.ch.entry := (congrArg Chan.entry hframe :)
      have hlength : lengthOf segs (b.consult.compute a a' h).ch (b.consult.compute a a' h).ch.entry
          = lengthOf segs b.ch b.ch.entry := by
        unfold lengthOf Chan.entryAt
        rw [hlist, hentry]
      dsimp only [Work.tickEnd]
      rw [hlength]
      by_cases hpos : (b.consult.compute a a' h).ch.pos < lengthOf segs b.ch b.ch.entry * 65536
      · rw [if_pos hpos, if_neg (not_le.2 hpos)]
      · rw [if_neg hpos, if_pos (not_lt.1 hpos)]
        exact Work.passEnd_rule c _ _
    | none =>
      have hstarves := starves_iff b.consult
      dsimp only
      by_cases hstarve : b.ch.underrun = false ∧ 2 ≤ b.ch.consec
      · rw [if_pos hstarve, if_pos (hstarves.2 hstarve)]
        exact Work.halt_rule c .starved _
      · rw [if_neg hstarve, if_neg (hstarves.not.2 hstarve)]
        rfl

end Sys2Proof.Machine
end

section
/-! ### What the fetch side does not touch -/

namespace Sys2Proof.Machine

/-- The channels of two works differ in the cursor and the pending target only: what a grant decision changes. -/
def Work.Alike (w v : Work) : Prop := ∃ x y, v.ch = { w.ch with cursor := x, target := y }

namespace Work.Alike

variable {w v : Work}

theorem of_frame (h : { v.ch with cursor := w.ch.cursor, target := w.ch.target } = w.ch) : w.Alike v :=
  ⟨v.ch.cursor, v.ch.target, (congrArg (fun k : Chan => { k with cursor := v.ch.cursor, target := v.ch.target }) h :)⟩

theorem withRecord (h : w.Alike v) (due : Bool) : (w.withRecord due).Alike (v.withRecord due) := by
  obtain ⟨x, y, h⟩ := h
  refine ⟨x, y, ?_⟩
  unfold Work.withRecord applied
  rw [h]
  dsimp only
  split_ifs <;> rfl

theorem startOfTick (h : w.Alike v) : w.startOfTick.Alike v.startOfTick := by
  obtain ⟨x, y, h⟩ := h
  rw [w.startOfTick_eq, v.startOfTick_eq, h]
  exact withRecord ⟨x, y, rfl⟩ _

theorem startEntry (h : w.Alike v) : w.startEntry.Alike v.startEntry := by
  obtain ⟨x, y, h⟩ := h
  rw [w.startEntry_eq, v.startEntry_eq, h]
  exact withRecord ⟨x, y, rfl⟩ _

theorem enterEntry (h : w.Alike v) (j : EntryIx) (carry : Nat) : (w.enterEntry j carry).Alike (v.enterEntry j carry) := by
  obtain ⟨x, y, h⟩ := h
  rw [w.enterEntry_eq, v.enterEntry_eq, h]
  change Alike _ (if (Chan.entryAt { w.ch with entry := j, pass := 0#16 } j).any Entry.wait = false then _
    else if w.ch.advLatch = true then _ else _)
  split_ifs
  · exact startEntry ⟨x, y, rfl⟩
  · exact startEntry ⟨x, y, rfl⟩
  · exact ⟨x, y, rfl⟩

/-- What is done alike to both channels, to fields that are neither of these. -/
theorem map (h : w.Alike v) (f : Chan → Chan)
    (hf : ∀ (k : Chan) x y, f { k with cursor := x, target := y } = { f k with cursor := x, target := y })
    (o o' : Option Burst) (l l' : List Kind) : Work.Alike ⟨f w.ch, o, l⟩ ⟨f v.ch, o', l'⟩ := by
  obtain ⟨x, y, h⟩ := h
  exact ⟨x, y, (congrArg f h).trans (hf _ _ _)⟩

theorem state (h : w.Alike v) : v.ch.state = w.ch.state := by
  obtain ⟨x, y, h⟩ := h
  rw [h]

theorem stop (h : w.Alike v) : v.ch.stop = w.ch.stop := by
  obtain ⟨x, y, h⟩ := h
  rw [h]

theorem startPending (h : w.Alike v) : v.ch.startPending = w.ch.startPending := by
  obtain ⟨x, y, h⟩ := h
  rw [h]

theorem startRequest (h : w.Alike v) : v.ch.startRequest = w.ch.startRequest := by
  obtain ⟨x, y, h⟩ := h
  rw [h]

theorem beginTick (h : w.Alike v) : w.beginTick.1.Alike v.beginTick.1 ∧ v.beginTick.2 = w.beginTick.2 := by
  have hstart := h.startOfTick
  unfold Work.beginTick
  rw [h.state]
  cases w.ch.state with
  | idle | arming | halted => exact ⟨h, rfl⟩
  | armed =>
    dsimp only
    rw [h.startPending]
    cases w.ch.startPending with
    | false => exact ⟨h, rfl⟩
    | true =>
      have hentered := (h.map (fun k => { k with
        startPending := false, startLatch := false, entry := 0, pass := 0#16, pos := 0, state := .running })
        (fun _ _ _ => rfl) w.burst v.burst (w.raised ++ [.started]) (v.raised ++ [.started])).enterEntry 0 0
      exact ⟨hentered, if_congr (Iff.of_eq (congrArg (· = ChanState.waiting) hentered.state)) rfl rfl⟩
  | running => exact ⟨hstart, rfl⟩
  | stopping =>
    dsimp only
    rw [hstart.stop]
    exact ⟨hstart, rfl⟩
  | waiting =>
    dsimp only
    have hentered := (hstart.map (fun k => { k with
      startRequest := false, pos := 0, pass := 0#16,
      state := if k.stop = some .atListEnd then .stopping else .running })
      (fun _ _ _ => rfl) w.startOfTick.burst v.startOfTick.burst w.startOfTick.raised v.startOfTick.raised).startEntry
    by_cases hstop : w.startOfTick.ch.stop = some .immediate
    · rw [if_pos hstop, if_pos (hstart.stop.trans hstop)]
      exact ⟨hstart, rfl⟩
    have hstop' : ¬ v.startOfTick.ch.stop = some .immediate := by rwa [hstart.stop]
    rw [if_neg hstop, if_neg hstop']
    by_cases hrequest : w.startOfTick.ch.startRequest = true
    · rw [if_pos hrequest, if_pos (hstart.startRequest.trans hrequest)]
      exact ⟨hentered, rfl⟩
    · have hrequest' : ¬ v.startOfTick.ch.startRequest = true := by rwa [hstart.startRequest]
      rw [if_neg hrequest, if_neg hrequest']
      exact ⟨hstart, rfl⟩

theorem contribution (h : w.Alike v) (segs : Vector SegRec 256) : v.contribution segs = w.contribution segs := by
  obtain ⟨⟨x, y, hch⟩, hphase⟩ := h.beginTick
  unfold Work.contribution
  generalize w.beginTick = r at hch hphase
  generalize v.beginTick = r' at hch hphase
  obtain ⟨w1, phase⟩ := r
  obtain ⟨⟨k, o, raised⟩, phase'⟩ := r'
  obtain rfl : k = _ := hch
  obtain rfl : phase' = phase := hphase
  cases phase' <;> rfl

end Work.Alike

/-- The tick of another channel leaves what a channel will contribute. -/
theorem State.tickOne_contribution (s : State) {c d : ChanId} (h : d ≠ c) :
    (s.tickOne c).contribution d = s.contribution d := by
  have hsegs : (s.tickOne c).segs = s.segs := by
    obtain ⟨_, _, _, _, _, _, e⟩ := s.tickOne_eq c
    rw [e]
  unfold State.contribution
  rw [s.tickOne_tickOf_ne h, hsegs]
  cases s.tickOf d with
  | noTick | done => rfl
  | due => exact (Work.Alike.of_frame (w := s.work d) (v := (s.tickOne c).work d) (s.tickOne_chan_ne h)).contribution s.segs

end Sys2Proof.Machine
end

section
/-! ### Output ticks and STARVED -/

namespace Sys2Proof.Machine

theorem State.tickParts (s : State) (c : ChanId) : TickParts s c (s.tickWordOf c) (s.tickEndOf c) := by
  unfold TickParts State.tickEndOf State.tickRestOf State.tickWordOf
  rw [Work.tickWord_eq]
  exact ⟨Work.wordAfter_rule _ _ _ _, Work.tickEnd_rule _ _ c _ _⟩

theorem State.ticked_rule (s : State) (c : ChanId) : TickRule s (s.ticked c) c := by
  obtain ⟨hchan, hburst, hport, htick, hsync, hrest⟩ := s.ticked_spec c
  exact ⟨s.tickWordOf c, s.tickEndOf c, s.tickParts c, (hchan c).trans (if_pos rfl),
    fun d hd => (hchan d).trans (if_neg hd), hburst, hport, (htick c).trans (if_pos rfl),
    fun d hd => (htick d).trans (if_neg hd), hsync, hrest⟩

/-- A tick that finds no items and takes the count to 3 starves the channel (R108). -/
theorem State.tickRestOf_starve {s : State} {c : ChanId} (hplay : (s.work c).beginTick.2 = .play)
    (hpair : (s.work c).beginTick.1.ch.pairAt s.segs = none)
    (hcount : (s.work c).beginTick.1.ch.underrun = false ∧ 2 ≤ (s.work c).beginTick.1.ch.consec) :
    s.tickRestOf c = .starve := by
  unfold State.tickRestOf
  rw [Work.tickWord_eq, hplay]
  unfold Work.wordAfter
  dsimp only
  rw [hpair]
  exact if_pos ((starves_iff (s.work c).beginTick.1.consult).2 hcount)

theorem exec_starved {s : State} {c : ChanId} (h : s.tickOf c = .due) (hstarve : s.tickRestOf c = .starve) :
    exec (.starved c) s = .next ((s.ticking c).foldl State.tickOne s) := by
  refine congrArg Host.Outcome.next (if_pos (Bool.and_eq_true_iff.2 ⟨decide_eq_true h, decide_eq_true hstarve⟩))

/-- The channel that starves is HALTED when its tick and those that coincide with it are over (R76). -/
theorem foldl_tickOne_halted {s : State} {c : ChanId} (hstarve : s.tickRestOf c = .starve) :
    (((s.ticking c).foldl State.tickOne s).chan c).state = .halted := by
  have hhalted : (s.tickEndOf c).ch.state = .halted := by
    unfold State.tickEndOf
    rw [hstarve]
    exact Work.halt_state c .starved _
  have hself : ((s.tickOne c).chan c).state = (s.tickEndOf c).ch.state := (congrArg Chan.state (s.tickOne_chan_self c) :)
  have hothers := foldl_tickOne_chan_ne (List.nodup_cons.1 (s.ticking_nodup c)).1 (s.tickOne c)
  exact ((congrArg Chan.state hothers :).trans hself).trans hhalted

/-- Settles O37: the ticks that coincide are taken one after another, each by the rule of its two parts; the tick that
starves a channel is one of them. -/
theorem outputTicks : Obligations.OutputTicks :=
  ⟨fun s _ hdue => ⟨exec_outputTick hdue, fun _ hd hdue' =>
      ⟨(s.tickOne_tickOf_ne hd).trans hdue', s.tickOne_contribution hd⟩⟩,
    fun s c _ => ⟨s.ticked c, s.tickOne_ticked c, s.ticked_rule c⟩,
    fun _ _ hdue hplay ⟨hpair, hcount⟩ =>
      have hstarve := State.tickRestOf_starve hplay hpair hcount
      ⟨_, exec_starved hdue hstarve, foldl_tickOne_halted hstarve, exec_outputTick hdue⟩⟩

end Sys2Proof.Machine
end

section
/-! ## The arithmetic of the Sample Path: exact formulas and bounds (R92 to R94, R96) -/

namespace Sys2Proof.Machine

/-! ### Interpolation (R92) -/

/-- The rounded part of a difference lies between nothing and the whole difference: rounding to the nearest integer keeps a
value between two integers. -/
theorem roundedPart_between (d : Int) {f : Nat} (hf : f < 65536) :
    min 0 d ≤ (d * f + 32768) / 65536 ∧ (d * f + 32768) / 65536 ≤ max 0 d := by
  have hf0 : (0 : Int) ≤ f := Int.natCast_nonneg f
  have hf1 : (f : Int) ≤ 65536 := by omega
  rcases le_total 0 d with hd | hd
  · have hlow : 0 ≤ d * f := Int.mul_nonneg hd hf0
    have hhigh : d * f ≤ d * 65536 := Int.mul_le_mul_of_nonneg_left hf1 hd
    omega
  · have hhigh : d * f ≤ 0 := Int.mul_nonpos_of_nonpos_of_nonneg hd hf0
    have hlow : d * 65536 ≤ d * f := Int.mul_le_mul_of_nonpos_left hd hf1
    omega

theorem interpolate_linear (a b : Int) (f : Nat) : interpolate .linear a b f = a + ((b - a) * f + 32768) / 65536 := rfl

theorem interpolate_hold (a b : Int) (f : Nat) : interpolate .hold a b f = a := rfl

theorem interpolate_linear_between (a b : Int) {f : Nat} (hf : f < 65536) :
    min a b ≤ interpolate .linear a b f ∧ interpolate .linear a b f ≤ max a b := by
  obtain ⟨hlow, hhigh⟩ := roundedPart_between (b - a) hf
  rw [interpolate_linear]
  omega

@[simp] theorem interpolate_linear_zero (a b : Int) : interpolate .linear a b 0 = a := by
  simp [interpolate_linear]

/-! ### Gain (R93) -/

/-- The product of two 16-bit values: a bilinear form takes its least and its greatest value at the corners of the range,
and each corner gives one product of distances that is not negative. -/
theorem toInt_mul_toInt_bounds (r g : Sample) :
    -1073709056 ≤ r.toInt * g.toInt ∧ r.toInt * g.toInt ≤ 1073741824 := by
  have hr0 : -32768 ≤ r.toInt := BitVec.le_toInt _
  have hr1 : r.toInt ≤ 32767 := Int.le_of_lt_add_one BitVec.toInt_lt
  have hg0 : -32768 ≤ g.toInt := BitVec.le_toInt _
  have hg1 : g.toInt ≤ 32767 := Int.le_of_lt_add_one BitVec.toInt_lt
  have hll := Int.mul_nonneg (Int.sub_nonneg_of_le hr0) (Int.sub_nonneg_of_le hg0)
  have hlh := Int.mul_nonneg (Int.sub_nonneg_of_le hr0) (Int.sub_nonneg_of_le hg1)
  have hhl := Int.mul_nonneg (Int.sub_nonneg_of_le hr1) (Int.sub_nonneg_of_le hg0)
  have hhh := Int.mul_nonneg (Int.sub_nonneg_of_le hr1) (Int.sub_nonneg_of_le hg1)
  ring_nf at hll hlh hhl hhh
  omega

theorem scale_bounds (r g : Sample) :
    -65534 ≤ scale r.toInt g.toInt ∧ scale r.toInt g.toInt ≤ 65536 := by
  obtain ⟨hlow, hhigh⟩ := toInt_mul_toInt_bounds r g
  unfold scale
  omega

@[simp] theorem scale_unity (r : Int) : scale r 16384 = r := by
  unfold scale
  omega

@[simp] theorem scale_zero (r : Int) : scale r 0 = 0 := by
  simp [scale]

/-! ### Saturation (R96) -/

theorem saturate_of_mem {v : Int} (hlow : -32768 ≤ v) (hhigh : v ≤ 32767) : saturate v = v := by
  rw [saturate_eq, min_eq_right hhigh, max_eq_right hlow]

theorem saturate_of_gt {v : Int} (h : 32767 < v) : saturate v = 32767 := by
  rw [saturate_eq, min_eq_left h.le]
  rfl

theorem saturate_of_lt {v : Int} (h : v < -32768) : saturate v = -32768 := by
  rw [saturate_eq, min_eq_right (by omega), max_eq_left h.le]

/-- Settles O36: each stage is its formula by definition; interpolation stays between its samples, the scaled value within
the bounds of a product of two samples, and the output is the nearest value of the sample range. -/
theorem sampleArithmetic : Obligations.SampleArithmetic := by
  refine ⟨fun a b f hf => ?_, fun r g => ?_, fun v => ?_⟩
  · obtain ⟨hlow, hhigh⟩ := interpolate_linear_between a.toInt b.toInt hf
    exact ⟨interpolate_linear _ _ f, interpolate_hold _ _ f, hlow, hhigh, interpolate_linear_zero _ _⟩
  · obtain ⟨hlow, hhigh⟩ := scale_bounds r g
    exact ⟨rfl, hlow, hhigh, fun hg => by rw [hg, scale_unity], fun hg => by rw [hg, scale_zero]⟩
  · exact ⟨saturate_of_mem, saturate_of_gt, saturate_of_lt, fun _ _ _ => ⟨rfl, rfl⟩⟩

end Sys2Proof.Machine
end

section
/-! ## What a tick reads: the fetched pair and the partner's contribution (R91, R95, R106) -/

namespace Sys2Proof.Machine

/-! ### The sample fetch (R91) -/

theorem Chan.isItem_iff (k : Chan) (it : Item) (q : Nat) :
    k.isItem it q = true ↔ it.entry = k.entry ∧ it.pass = k.pass ∧ it.index = q := by
  simp only [Chan.isItem, Bool.and_eq_true, decide_eq_true_eq, and_assoc]

/-- Both values of the fetch are read at the head of the FIFO: the item of the position's index, then the item after it
unless the head is read for both. -/
theorem Chan.fetchPair_eq_some_iff (k : Chan) (L : Nat) (a b : Sample) :
    k.fetchPair L = some (a, b) ↔
      ∃ it r, k.fifo = it :: r ∧ k.isItem it (posIndex k.pos) = true ∧ it.value = a
        ∧ if k.stat.interp = .linear ∧ posIndex k.pos + 1 < L then
            ∃ nx r', r = nx :: r' ∧ k.isItem nx (posIndex k.pos + 1) = true ∧ nx.value = b
          else b = a := by
  unfold Chan.fetchPair
  cases k.fifo with
  | nil => simp
  | cons it r =>
    by_cases hhead : k.isItem it (posIndex k.pos) = true
    · by_cases hnext : k.stat.interp = .linear ∧ posIndex k.pos + 1 < L
      · cases r with
        | nil => simp [hhead, hnext]
        | cons nx r' => by_cases hnx : k.isItem nx (posIndex k.pos + 1) = true <;> simp [hhead, hnext, hnx]
      · have hsame : it.value = a ∧ it.value = b ↔ it.value = a ∧ b = a := and_congr_right fun h => by rw [h, eq_comm]
        simp [hhead, hnext, hsame]
    · simp [hhead]

/-! ### The partner's contribution (R95) -/

section

variable {w : Work} {segs : Vector SegRec 256}

/-- A tick that plays nothing contributes 0. -/
theorem Work.contribution_of_not_play (h : w.beginTick.2 ≠ .play) : w.contribution segs = 0 := by
  unfold Work.contribution
  generalize w.beginTick = begun at h
  obtain ⟨w1, phase⟩ := begun
  cases phase with
  | play => exact absurd rfl h
  | idleWord | parkWord | stopNow | hold => rfl

/-- A computed tick contributes its scaled value. -/
theorem Work.contribution_of_pair {a b : Sample} (hplay : w.beginTick.2 = .play)
    (hpair : w.beginTick.1.ch.pairAt segs = some (a, b)) : w.contribution segs = w.beginTick.1.ch.scaledAt a b := by
  unfold Work.contribution
  generalize w.beginTick = begun at hplay hpair
  obtain ⟨w1, phase⟩ := begun
  obtain rfl : phase = .play := hplay
  change w1.consult.ch.fetchPair (lengthOf segs w1.ch w1.ch.entry) = some (a, b) at hpair
  dsimp only
  rw [hpair]

/-- A stalled tick contributes the scaled value held. -/
theorem Work.contribution_of_stalled (hplay : w.beginTick.2 = .play) (hpair : w.beginTick.1.ch.pairAt segs = none) :
    w.contribution segs = w.beginTick.1.ch.scaled := by
  unfold Work.contribution
  generalize w.beginTick = begun at hplay hpair
  obtain ⟨w1, phase⟩ := begun
  obtain rfl : phase = .play := hplay
  change w1.consult.ch.fetchPair (lengthOf segs w1.ch w1.ch.entry) = none at hpair
  dsimp only
  rw [hpair]

end

section

variable {s : State} {c : ChanId}

theorem State.contribution_noTick (h : s.tickOf c = .noTick) : s.contribution c = 0 := by
  unfold State.contribution
  rw [h]

theorem State.contribution_done {g : Int} (h : s.tickOf c = .done g) : s.contribution c = g := by
  unfold State.contribution
  rw [h]

theorem State.contribution_due (h : s.tickOf c = .due) : s.contribution c = (s.work c).contribution s.segs := by
  unfold State.contribution
  rw [h]

end

/-- Settles O41: the fetch reads the head of the FIFO; the drop before it is the run that `dropBelow` removes; the
contribution is given case by case of the tick and of its beginning. -/
theorem tickInputs : Obligations.TickInputs := by
  refine ⟨fun k L a b => ?_, dropBelow_spec,
    fun s c => ⟨State.contribution_noTick, fun _ => State.contribution_done, fun hdue => ?_⟩⟩
  · simp only [Chan.fetchPair_eq_some_iff, Chan.isItem_iff, and_assoc, posIndex]
  · rw [State.contribution_due hdue]
    by_cases hplay : (s.work c).beginTick.2 = .play
    · rw [if_pos hplay]
      dsimp only
      split
      · next hpair => exact Work.contribution_of_pair hplay hpair
      · next hpair => exact Work.contribution_of_stalled hplay hpair
    · rw [if_neg hplay]
      exact Work.contribution_of_not_play hplay

end Sys2Proof.Machine
end

section
/-! ## Play order of a list of places (R101 to R103, R110) -/

namespace Sys2Proof.Machine

/-- The place n further on in the same pass. -/
def Cursor.skip (x : Cursor) (n : Nat) : Cursor := { x with index := x.index + n }

/-- The n places of one pass from x on. -/
def Cursor.run (x : Cursor) (n : Nat) : List Cursor := (List.range n).map x.skip

/-- A place that is not the last of its pass. -/
abbrev Cursor.Inner (length : EntryIx → Nat) (x : Cursor) : Prop := x.index + 1 < length x.entry

/-- The jump that is still to come after the places of a list: a pass that ends there uses it up (R110). -/
def jumpPast (length : EntryIx → Nat) (jump : Option EntryIx) : List Cursor → Option EntryIx
  | [] => jump
  | x :: l => if x.Inner length then jumpPast length jump l else none

/-- Where the walk goes after the pass of x: to a stored jump target, else on (R103, R110). -/
def Chan.Enters (k : Chan) (jump : Option EntryIx) (x y : Cursor) : Prop :=
  match jump with
  | some j => y = ⟨j, 0#16, 0⟩
  | none => k.WalksTo x y

section
variable {length : EntryIx → Nat} {jump : Option EntryIx} {k : Chan} {l m : List Cursor} {x y : Cursor} {n : Nat}

theorem jumpPast_of_inner (h : ∀ z ∈ l, z.Inner length) : jumpPast length jump l = jump := by
  induction l with
  | nil => rfl
  | cons z l ih =>
    obtain ⟨hz, hl⟩ := List.forall_mem_cons.1 h
    exact (if_pos hz).trans (ih hl)

theorem jumpPast_of_end (hx : x ∈ l) (h : ¬ x.Inner length) : jumpPast length jump l = none := by
  induction l with
  | nil => cases hx
  | cons z l ih =>
    unfold jumpPast
    split
    · rename_i hz
      rcases List.mem_cons.1 hx with rfl | hx
      · exact absurd hz h
      · exact ih hx
    · rfl

theorem jumpPast_none (l : List Cursor) : jumpPast length none l = none := by
  induction l with
  | nil => rfl
  | cons z l ih =>
    unfold jumpPast
    rw [ih, ite_self]

/-! ### Equations of the play order -/

theorem playOrder_nil : k.PlayOrder length jump [] := by cases jump <;> trivial

theorem playOrder_singleton : k.PlayOrder length jump [x] := by cases jump <;> trivial

theorem playOrder_cons :
    k.PlayOrder length jump (x :: y :: m)
      ↔ if x.Inner length then y = x.skip 1 ∧ k.PlayOrder length jump (y :: m)
        else k.Enters jump x y ∧ k.PlayOrder length none (y :: m) := by
  cases jump <;> exact .rfl

theorem playOrder_inner (h : x.Inner length) :
    k.PlayOrder length jump (x :: y :: m) ↔ y = x.skip 1 ∧ k.PlayOrder length jump (y :: m) := by
  rw [playOrder_cons, if_pos h]

theorem playOrder_end (h : ¬ x.Inner length) :
    k.PlayOrder length jump (x :: y :: m) ↔ k.Enters jump x y ∧ k.PlayOrder length none (y :: m) := by
  rw [playOrder_cons, if_neg h]

/-- A list in play order up to a place, and from that place on. -/
theorem playOrder_append :
    k.PlayOrder length jump (l ++ x :: m)
      ↔ k.PlayOrder length jump (l ++ [x]) ∧ k.PlayOrder length (jumpPast length jump l) (x :: m) := by
  induction l generalizing jump with
  | nil => exact ⟨fun h => ⟨playOrder_singleton, h⟩, And.right⟩
  | cons z l ih =>
    obtain ⟨w, r, hr⟩ : ∃ w r, ∀ q, l ++ x :: q = w :: (r ++ q) := by
      cases l with
      | nil => exact ⟨x, [], fun _ => rfl⟩
      | cons w l => exact ⟨w, l ++ [x], fun q => by simp⟩
    have hcons : ∀ q, z :: l ++ x :: q = z :: w :: (r ++ q) := fun q => congrArg (z :: ·) (hr q)
    rw [hcons, hcons]
    by_cases hz : z.Inner length
    · rw [playOrder_inner hz, playOrder_inner hz, ← hr, ← hr, ih, jumpPast, if_pos hz, and_assoc]
    · rw [playOrder_end hz, playOrder_end hz, ← hr, ← hr, ih, jumpPast, if_neg hz, jumpPast_none, and_assoc]

/-- What follows the places of the first pass, where they are not the whole of it. -/
theorem PlayOrder.right (h : k.PlayOrder length jump (l ++ m)) (hl : ∀ z ∈ l, z.Inner length) :
    k.PlayOrder length jump m := by
  cases m with
  | nil => exact playOrder_nil
  | cons x m =>
    have hright := (playOrder_append.1 h).2
    rwa [jumpPast_of_inner hl] at hright

/-- All places up to the end of the first pass are of one pass. -/
theorem PlayOrder.same_pass (h : k.PlayOrder length jump (l ++ [x])) (hl : ∀ z ∈ l, z.Inner length)
    (hy : (l ++ [x]).head? = some y) : x.entry = y.entry ∧ x.pass = y.pass := by
  induction l generalizing y with
  | nil =>
    obtain rfl : x = y := Option.some.inj hy
    exact ⟨rfl, rfl⟩
  | cons z l ih =>
    obtain ⟨hz, hl⟩ := List.forall_mem_cons.1 hl
    obtain rfl : z = y := Option.some.inj hy
    obtain ⟨w, r, hr⟩ : ∃ w r, l ++ [x] = w :: r := by
      cases l with
      | nil => exact ⟨x, [], rfl⟩
      | cons w l => exact ⟨w, l ++ [x], rfl⟩
    rw [List.cons_append, hr, playOrder_inner hz] at h
    obtain ⟨hw, h⟩ := h
    obtain ⟨hentry, hpass⟩ := ih (y := w) (hr ▸ h) hl (by rw [hr]; rfl)
    rw [hw] at hentry hpass
    exact ⟨hentry, hpass⟩

/-! ### Runs of one pass -/

theorem Cursor.run_succ : x.run (n + 1) = x.run n ++ [x.skip n] := by
  unfold Cursor.run
  rw [List.range_succ, List.map_append]
  rfl

theorem Cursor.run_cons : x.run (n + 1) = x :: (x.skip 1).run n := by
  unfold Cursor.run
  rw [List.range_succ_eq_map, List.map_cons, List.map_map]
  refine congrArg (x :: ·) (List.map_congr_left fun i _ => ?_)
  exact congrArg (Cursor.mk x.entry x.pass) (by omega : x.index + (i + 1) = x.index + 1 + i)

theorem Cursor.mem_run : y ∈ x.run n ↔ ∃ i < n, y = x.skip i := by
  unfold Cursor.run
  simp only [List.mem_map, List.mem_range, eq_comm (a := y)]

theorem Cursor.run_inner (h : x.index + n < length x.entry) : ∀ z ∈ x.run n, z.Inner length := by
  intro z hz
  obtain ⟨i, hi, rfl⟩ := Cursor.mem_run.1 hz
  exact (by omega : x.index + i + 1 < length x.entry)

theorem playOrder_run (h : x.index + n < length x.entry) : k.PlayOrder length jump (x.run n ++ [x.skip n]) := by
  induction n with
  | zero => exact playOrder_singleton
  | succ n ih =>
    rw [Cursor.run_succ, List.append_assoc, List.singleton_append, playOrder_append,
      jumpPast_of_inner (Cursor.run_inner (by omega))]
    refine ⟨ih (by omega), (playOrder_inner (by omega : x.index + n + 1 < length x.entry)).2 ⟨rfl, playOrder_singleton⟩⟩

end

end Sys2Proof.Machine
end

section
/-! ## What a channel has fetched and what it fetches next (R101 to R103, R107, R110 to R113) -/

namespace Sys2Proof.Machine

/-- The place that a FIFO item is of (R101). -/
def Item.place (it : Item) : Cursor := ⟨it.entry, it.pass, it.index⟩

/-- The place that a burst reads first (R104). -/
def FetchTag.place (g : FetchTag) : Cursor := ⟨g.entry, g.pass, g.index⟩

/-- The places that a channel's own burst in flight will bring (R105). -/
def broughtBy (own : Option Burst) : List Cursor :=
  match own with
  | some b =>
    (match b.keep, b.tag with
     | true, some g => g.place.run b.count
     | _, _ => [])
  | none => []

/-- The places fetched, with those that the channel's own burst in flight will bring. -/
def Chan.fetched (k : Chan) (own : Option Burst) : List Cursor := k.fifo.map Item.place ++ broughtBy own

/-- The places fetched, and the one to be fetched next. -/
def Chan.ahead (k : Chan) (own : Option Burst) : List Cursor := k.fetched own ++ k.cursor.toList

/-- A place of the list (R43). -/
def Chan.OnWalk (length : EntryIx → Nat) (k : Chan) (x : Cursor) : Prop :=
  k.hasPass x.entry x.pass ∧ x.index < length x.entry

/-- The walk ends after the pass of x: case 5 of R103, a stop at the end of the pass apart. -/
def Chan.WalkEnds (k : Chan) (x : Cursor) : Prop :=
  ∃ e, k.entryAt x.entry = some e ∧ ¬ (e.repeats = 0#16 ∨ x.pass.toNat + 1 < e.repeats.toNat)
    ∧ successor k.list x.entry = none
    ∧ (k.stat.endMode = .loop → k.stop = some .atListEnd ∨ k.stop = some .atPass)

/-- The size of a burst to be kept (R104). -/
def Sized (length : EntryIx → Nat) (own : Option Burst) : Prop :=
  ∀ b g, own = some b → b.keep = true → b.tag = some g → 1 ≤ b.count ∧ g.length = length g.entry

/-- No burst, or one whose items are to be discarded. -/
def Discarded (own : Option Burst) : Prop := ∀ b, own = some b → b.keep = false

/-- FIFO, burst in flight and cursor hold places of the list in play order, a jump still to come or not. -/
structure Chan.Walked (length : EntryIx → Nat) (own : Option Burst) (jump : Option EntryIx) (k : Chan) : Prop where
  order : k.PlayOrder length jump (k.ahead own)
  within : ∀ x ∈ k.ahead own, k.OnWalk length x
  marks : ∀ it ∈ k.fifo, it.last = decide (it.index + 1 = length it.entry)
  burst : Sized length own

/-- The play-order law of one channel, taken apart. -/
structure Chan.Fetches (length : EntryIx → Nat) (own : Option Burst) (k : Chan) : Prop
    extends k.Walked length own k.jump where
  first : ∀ x, (k.ahead own).head? = some x → x.entry = k.entry ∧ x.pass = k.pass
  here : k.hasPass k.entry k.pass
  start : k.state.playing = false → k.entry = 0 ∧ k.pass = 0#16
  target : ∀ j, k.target = some j → k.jump = some j ∧ ∀ x ∈ k.fetched own, x.Inner length
  flushed : k.stop = some .immediate → k.ahead own = [] ∧ k.target = none
  stored : k.stop ≠ some .immediate → ∀ j, k.jump = some j →
    k.target = some j ∨ ∃ x ∈ (k.ahead own).dropLast, ¬ x.Inner length
  ended : k.stop ≠ some .immediate → k.cursor = none →
    ∃ x, (k.fetched own).getLast? = some x ∧ ¬ x.Inner length ∧ k.WalkEnds x

theorem mem_dropLast_iff {α : Type} (A : List α) (x : α) : x ∈ A.dropLast ↔ ∃ l y r, A = l ++ x :: y :: r := by
  constructor
  · intro h
    obtain ⟨l, m, hl⟩ := List.mem_iff_append.1 h
    have hA := List.dropLast_append_getLast (List.ne_nil_of_mem (List.mem_of_mem_dropLast h))
    obtain ⟨y, r, hr⟩ := List.exists_cons_of_ne_nil
      (List.append_ne_nil_of_right_ne_nil m (List.cons_ne_nil (A.getLast _) []))
    exact ⟨l, y, r, by rw [← hA, hl, List.append_assoc, List.cons_append, hr]⟩
  · rintro ⟨l, y, r, rfl⟩
    rw [List.dropLast_append_of_ne_nil (List.cons_ne_nil _ _), List.dropLast_cons_cons]
    simp

section
variable {length : EntryIx → Nat} {own : Option Burst} {jump : Option EntryIx} {k x : Chan}

/-- A last place is one that is not inside its pass. -/
theorem Chan.OnWalk.last_iff {p : Cursor} (h : k.OnWalk length p) :
    p.index + 1 = length p.entry ↔ ¬ p.Inner length := by
  have hlt := h.2
  constructor <;> intro h' <;> omega

/-- The play-order law of one channel. -/
theorem fetches_iff :
    k.Fetches length own ↔
      k.PlayOrder length k.jump (k.ahead own)
        ∧ (∀ x ∈ k.ahead own, k.hasPass x.entry x.pass ∧ x.index < length x.entry)
        ∧ (∀ x, (k.ahead own).head? = some x → x.entry = k.entry ∧ x.pass = k.pass)
        ∧ k.hasPass k.entry k.pass
        ∧ (k.state.playing = false → k.entry = 0 ∧ k.pass = 0#16)
        ∧ (∀ it ∈ k.fifo, it.last = decide (it.index + 1 = length it.entry))
        ∧ Sized length own
        ∧ (∀ j, k.target = some j → k.jump = some j ∧ ∀ x ∈ k.fetched own, x.index + 1 < length x.entry)
        ∧ if k.stop = some .immediate then k.ahead own = [] ∧ k.target = none
          else
            (∀ j, k.jump = some j →
              k.target = some j ∨ ∃ l x y r, k.ahead own = l ++ x :: y :: r ∧ x.index + 1 = length x.entry)
              ∧ (k.cursor = none →
                  ∃ x e, (k.fetched own).getLast? = some x ∧ k.entryAt x.entry = some e ∧ x.index + 1 = length x.entry
                    ∧ ¬ (e.repeats = 0#16 ∨ x.pass.toNat + 1 < e.repeats.toNat) ∧ successor k.list x.entry = none
                    ∧ (k.stat.endMode = .loop → k.stop = some .atListEnd ∨ k.stop = some .atPass)) := by
  constructor
  · intro h
    refine ⟨h.order, h.within, h.first, h.here, h.start, h.marks, h.burst, h.target, ?_⟩
    split
    · exact h.flushed ‹_›
    · rename_i hstop
      refine ⟨fun j hj => (h.stored hstop j hj).imp_right ?_, fun hcur => ?_⟩
      · rintro ⟨x, hx, hend⟩
        obtain ⟨l, y, r, hA⟩ := (mem_dropLast_iff _ _).1 hx
        exact ⟨l, x, y, r, hA, (h.within x (List.mem_of_mem_dropLast hx)).last_iff.2 hend⟩
      · obtain ⟨x, hx, hend, e, he, hmore, hsucc, hloop⟩ := h.ended hstop hcur
        have hmem : x ∈ k.ahead own := List.mem_append_left _ (List.mem_of_getLast? hx)
        exact ⟨x, e, hx, he, (h.within x hmem).last_iff.2 hend, hmore, hsucc, hloop⟩
  · rintro ⟨horder, hwithin, hfirst, hhere, hstart, hmarks, hburst, htarget, hrest⟩
    refine ⟨⟨horder, hwithin, hmarks, hburst⟩, hfirst, hhere, hstart, htarget, fun hstop => ?_, fun hstop j hj => ?_,
      fun hstop hcur => ?_⟩
    · rwa [if_pos hstop] at hrest
    · rw [if_neg hstop] at hrest
      refine (hrest.1 j hj).imp_right ?_
      rintro ⟨l, x, y, r, hA, hend⟩
      have hx : x ∈ (k.ahead own).dropLast := (mem_dropLast_iff _ _).2 ⟨l, y, r, hA⟩
      exact ⟨x, hx, fun h => absurd h (by omega)⟩
    · rw [if_neg hstop] at hrest
      obtain ⟨x, e, hx, he, hend, hmore, hsucc, hloop⟩ := hrest.2 hcur
      exact ⟨x, hx, fun h => absurd h (by omega), e, he, hmore, hsucc, hloop⟩

/-! ### What the law does not see -/

/-- The fields that say what is ahead, and by which list. -/
def Chan.haul (k : Chan) : List Entry × EndMode × List Item × Option Cursor :=
  (k.list, k.stat.endMode, k.fifo, k.cursor)

theorem haul_eq (h : x.haul = k.haul) :
    x.list = k.list ∧ x.stat.endMode = k.stat.endMode ∧ x.fifo = k.fifo ∧ x.cursor = k.cursor := by
  simpa only [Chan.haul, Prod.mk.injEq] using h

theorem hasPass_congr (hl : x.list = k.list) (j : EntryIx) (pass : Half) : x.hasPass j pass ↔ k.hasPass j pass := by
  unfold Chan.hasPass Chan.entryAt
  rw [hl]

theorem walksTo_congr (hl : x.list = k.list) (he : x.stat.endMode = k.stat.endMode) (p q : Cursor) :
    x.WalksTo p q ↔ k.WalksTo p q := by
  unfold Chan.WalksTo Chan.entryAt
  rw [hl, he]

theorem enters_congr (hl : x.list = k.list) (he : x.stat.endMode = k.stat.endMode) (p q : Cursor) :
    x.Enters jump p q ↔ k.Enters jump p q := by
  cases jump with
  | none => exact walksTo_congr hl he p q
  | some j => exact .rfl

theorem playOrder_congr (hl : x.list = k.list) (he : x.stat.endMode = k.stat.endMode) (A : List Cursor) :
    x.PlayOrder length jump A ↔ k.PlayOrder length jump A := by
  induction A generalizing jump with
  | nil => exact ⟨fun _ => playOrder_nil, fun _ => playOrder_nil⟩
  | cons p A ih =>
    cases A with
    | nil => exact ⟨fun _ => playOrder_singleton, fun _ => playOrder_singleton⟩
    | cons q A => rw [playOrder_cons, playOrder_cons, ih, ih, enters_congr hl he]

theorem Chan.WalkEnds.congr {p q : Cursor} (h : k.WalkEnds p) (hl : x.list = k.list)
    (he : x.stat.endMode = k.stat.endMode) (hq : q.entry = p.entry ∧ q.pass = p.pass)
    (hs : k.stop = some .atListEnd ∨ k.stop = some .atPass → x.stop = some .atListEnd ∨ x.stop = some .atPass) :
    x.WalkEnds q := by
  obtain ⟨e, hentry, hmore, hsucc, hloop⟩ := h
  refine ⟨e, ?_, ?_, ?_, fun hmode => hs (hloop (he ▸ hmode))⟩
  · unfold Chan.entryAt
    rwa [hl, hq.1]
  · rwa [hq.2]
  · rwa [hl, hq.1]

theorem ahead_congr (h : x.haul = k.haul) : x.ahead own = k.ahead own := by
  obtain ⟨-, -, hfifo, hcur⟩ := haul_eq h
  unfold Chan.ahead Chan.fetched
  rw [hfifo, hcur]

theorem fetched_congr (h : x.haul = k.haul) : x.fetched own = k.fetched own := by
  obtain ⟨-, -, hfifo, -⟩ := haul_eq h
  unfold Chan.fetched
  rw [hfifo]

theorem Chan.Walked.congr (h : k.Walked length own jump) (hx : x.haul = k.haul) : x.Walked length own jump := by
  obtain ⟨hl, he, hfifo, -⟩ := haul_eq hx
  have hahead : x.ahead own = k.ahead own := ahead_congr hx
  refine ⟨?_, fun p hp => ?_, ?_, h.burst⟩
  · rw [hahead, playOrder_congr hl he]
    exact h.order
  · rw [hahead] at hp
    exact ⟨(hasPass_congr hl _ _).2 (h.within p hp).1, (h.within p hp).2⟩
  · rw [hfifo]
    exact h.marks

/-- The fields that say where playback is and what awaits it, a stop apart. -/
def Chan.course (k : Chan) : EntryIx × Half × Option EntryIx × Option EntryIx := (k.entry, k.pass, k.jump, k.target)

/-- Stop points that the law does not tell apart: IMMEDIATE or not, and where they are to be, AT-PASS and
AT-LIST-END. -/
structure StopsAlike (o o' : Option StopPoint) : Prop where
  now : o' = some .immediate ↔ o = some .immediate
  later : o = some .atListEnd ∨ o = some .atPass → o' = some .atListEnd ∨ o' = some .atPass

theorem StopsAlike.of_eq {o o' : Option StopPoint} (h : o' = o) : StopsAlike o o' := h ▸ ⟨.rfl, id⟩

/-- A stop at a pass end or at list end takes the place of none or of another such (R72). -/
theorem StopsAlike.of_later {o : Option StopPoint} {mode : StopPoint} (h : o ≠ some .immediate)
    (hmode : mode ≠ .immediate) : StopsAlike o (some mode) := by
  refine ⟨⟨fun e => absurd (Option.some.inj e) hmode, fun e => absurd e h⟩, fun _ => ?_⟩
  cases mode with
  | immediate => exact absurd rfl hmode
  | atPass => exact .inr rfl
  | atListEnd => exact .inl rfl

theorem course_eq (h : x.course = k.course) :
    x.entry = k.entry ∧ x.pass = k.pass ∧ x.jump = k.jump ∧ x.target = k.target := by
  simpa only [Chan.course, Prod.mk.injEq] using h

/-- Of the state of a channel the law sees only whether it is in play. -/
theorem Chan.Fetches.congr (h : k.Fetches length own) (hx : x.haul = k.haul) (hc : x.course = k.course)
    (hs : StopsAlike k.stop x.stop) (hp : x.state.playing = false → k.state.playing = false) :
    x.Fetches length own := by
  obtain ⟨hl, he, -, hcur⟩ := haul_eq hx
  obtain ⟨hentry, hpass, hjump, htarget⟩ := course_eq hc
  have hahead : x.ahead own = k.ahead own := ahead_congr hx
  have hfetched : x.fetched own = k.fetched own := fetched_congr hx
  refine ⟨hjump ▸ h.toWalked.congr hx, ?_, ?_, fun e => ?_, ?_, ?_, ?_, fun hlater hn => ?_⟩
  · rw [hahead, hentry, hpass]
    exact h.first
  · rw [hentry, hpass, hasPass_congr hl]
    exact h.here
  · rw [hentry, hpass]
    exact h.start (hp e)
  · rw [htarget, hjump, hfetched]
    exact h.target
  · rw [hs.now, hahead, htarget]
    exact h.flushed
  · rw [ne_eq, hs.now, hjump, htarget, hahead]
    exact h.stored
  · rw [ne_eq, hs.now] at hlater
    rw [hcur] at hn
    obtain ⟨p, hp, hend, hends⟩ := h.ended hlater hn
    exact ⟨p, hfetched ▸ hp, hend, hends.congr hl he ⟨rfl, rfl⟩ hs.later⟩

/-! ### Bursts -/

theorem broughtBy_discarded (h : Discarded own) : broughtBy own = [] := by
  unfold broughtBy
  cases own with
  | none => rfl
  | some b =>
    dsimp only
    rw [h b rfl]

theorem Discarded.sized (h : Discarded own) : Sized length own := fun b _ hb hkeep _ => by
  rw [h b hb] at hkeep
  cases hkeep

theorem dropBurst_discarded (c : ChanId) (o : Option Burst) : Discarded (ownBurst c (dropBurst c o)) := fun b hb => by
  obtain ⟨hb, hreq⟩ := (ownBurst_eq c _ b).1 hb
  exact dropBurst_noneKept c o b hb hreq

theorem broughtBy_kept {b : Burst} {g : FetchTag} (hkeep : b.keep = true) (htag : b.tag = some g) :
    broughtBy (some b) = g.place.run b.count := by
  unfold broughtBy
  dsimp only
  rw [hkeep, htag]

/-- A burst that is to bring something is kept, with a tag. -/
theorem broughtBy_cases (own : Option Burst) :
    broughtBy own = [] ∨ ∃ b g, own = some b ∧ b.keep = true ∧ b.tag = some g := by
  cases own with
  | none => exact .inl rfl
  | some b =>
    cases hkeep : b.keep with
    | false => exact .inl (broughtBy_discarded fun x hx => Option.some.inj hx ▸ hkeep)
    | true =>
      cases htag : b.tag with
      | none =>
        refine .inl ?_
        unfold broughtBy
        dsimp only
        rw [hkeep, htag]
      | some g => exact .inr ⟨b, g, rfl, hkeep, htag⟩

/-! ### Fetching from an entry's start, and not at all (R61, R111 to R113) -/

theorem hasPass_zero {j : EntryIx} (h : j.val < k.list.length) : k.hasPass j 0#16 := by
  refine ⟨_, List.getElem?_eq_getElem h, ?_⟩
  by_cases h0 : (k.list[j.val]).repeats = 0#16
  · exact .inl h0
  · refine .inr (Nat.pos_of_ne_zero fun e => h0 ?_)
    exact BitVec.eq_of_toNat_eq e

/-- A channel that has nothing and fetches the entry at which it stands. -/
theorem Chan.fetches_afresh (hfifo : k.fifo = []) (hcur : k.cursor = some ⟨k.entry, 0#16, 0⟩)
    (htarget : k.target = none) (hjump : k.jump = none) (hpass : k.pass = 0#16) (hstop : k.stop ≠ some .immediate)
    (hown : Discarded own) (hentry : k.entry.val < k.list.length) (hlength : 0 < length k.entry)
    (hstart : k.state.playing = false → k.entry = 0) : k.Fetches length own := by
  have hfetched : k.fetched own = [] := by
    unfold Chan.fetched
    rw [hfifo, broughtBy_discarded hown]
    rfl
  have hahead : k.ahead own = [⟨k.entry, 0#16, 0⟩] := by
    unfold Chan.ahead
    rw [hfetched, hcur]
    rfl
  refine ⟨⟨?_, ?_, ?_, hown.sized⟩, ?_, hpass ▸ hasPass_zero hentry, fun h => ⟨hstart h, hpass⟩, ?_,
    fun h => absurd h hstop, ?_, ?_⟩
  · rw [hahead]
    exact playOrder_singleton
  · rw [hahead]
    rintro p hp
    obtain rfl := List.mem_singleton.1 hp
    exact ⟨hasPass_zero hentry, hlength⟩
  · rw [hfifo]
    nofun
  · rw [hahead]
    rintro p hp
    obtain rfl := Option.some.inj hp
    exact ⟨rfl, hpass.symm⟩
  · rw [htarget]
    nofun
  · rw [hjump]
    nofun
  · rw [hcur]
    nofun

/-- A channel in play that an IMMEDIATE stop has flushed. -/
theorem Chan.fetches_flushed (hfifo : k.fifo = []) (hcur : k.cursor = none) (htarget : k.target = none)
    (hstop : k.stop = some .immediate) (hown : Discarded own) (hhere : k.hasPass k.entry k.pass)
    (hplay : k.state.playing = true) : k.Fetches length own := by
  have hahead : k.ahead own = [] := by
    unfold Chan.ahead Chan.fetched
    rw [hfifo, hcur, broughtBy_discarded hown]
    rfl
  refine ⟨⟨?_, ?_, ?_, hown.sized⟩, ?_, hhere, fun h => ?_, ?_, fun _ => ⟨hahead, htarget⟩, fun h => absurd hstop h,
    fun h => absurd hstop h⟩
  · rw [hahead]
    exact playOrder_nil
  · rw [hahead]
    nofun
  · rw [hfifo]
    nofun
  · rw [hahead]
    nofun
  · rw [hplay] at h
    cases h
  · rw [htarget]
    nofun

end

end Sys2Proof.Machine
end

section
/-! ## The end of the pass in play, in the FIFO or still to be fetched (R101, R103, R106, R107, R110) -/

namespace Sys2Proof.Machine

/-! ### Where the walk goes on (R103) -/

section
variable {segs : Vector SegRec 256} {jump : Option EntryIx} {k : Chan} {p y : Cursor}

theorem Chan.OnList.length_pos (h : k.OnList segs) {j : EntryIx} (hj : j.val < k.list.length) : 0 < lengthOf segs k j :=
  Nat.lt_of_lt_of_le (by decide) (h.le_lengthOf hj)

theorem Chan.hasPass.lt {j : EntryIx} {pass : Half} (h : k.hasPass j pass) : j.val < k.list.length := by
  obtain ⟨e, he, -⟩ := h
  exact (List.getElem?_eq_some_iff.1 he).1

theorem Chan.OnList.onWalk_start (h : k.OnList segs) {j : EntryIx} (hj : j.val < k.list.length) :
    k.OnWalk (lengthOf segs k) ⟨j, 0#16, 0⟩ := ⟨hasPass_zero hj, h.length_pos hj⟩

/-- A pass number that is followed by one more does not wrap, unless the entry is endless (R43). -/
theorem pass_succ_toNat {pass repeats : Half} (h : pass.toNat < repeats.toNat) :
    (pass + 1#16).toNat = pass.toNat + 1 := by
  have hlt := repeats.isLt
  rw [BitVec.toNat_add]
  exact Nat.mod_eq_of_lt (by simp; omega)

/-- The walk stays on the list (R44, R60). -/
theorem Chan.WalksTo.onWalk (h : k.WalksTo p y) (hk : k.OnList segs) (hp : k.hasPass p.entry p.pass) :
    k.OnWalk (lengthOf segs k) y := by
  obtain ⟨e, he, hindex, hgoes⟩ := h
  have hstart : ∀ j : EntryIx, j.val < k.list.length → y.entry = j → y.pass = 0#16 → k.OnWalk (lengthOf segs k) y :=
    fun j hj hentry hpass => by
      obtain ⟨entry, pass, index⟩ := y
      obtain rfl : entry = j := hentry
      obtain rfl : pass = 0#16 := hpass
      obtain rfl : index = 0 := hindex
      exact hk.onWalk_start hj
  split at hgoes
  · rename_i hmore
    obtain ⟨hentry, hpass⟩ := hgoes
    refine ⟨⟨e, hentry ▸ he, hmore.imp_right fun hlt => ?_⟩, ?_⟩
    · rw [hpass, pass_succ_toNat (Nat.lt_of_succ_lt hlt)]
      exact hlt
    · rw [hentry, hindex]
      exact hk.length_pos hp.lt
  · obtain ⟨hpass, hnext⟩ := hgoes
    have hthere : ({ k with entry := p.entry } : Chan).OnList segs := ⟨hk.long, hk.closed, hp.lt, hk.jump⟩
    cases hsucc : successor k.list p.entry with
    | some j =>
      rw [hsucc] at hnext
      exact hstart j (hthere.successor_lt hsucc) hnext hpass
    | none =>
      rw [hsucc] at hnext
      exact hstart 0 (Nat.lt_of_le_of_lt (Nat.zero_le _) hk.entry) hnext.2 hpass

theorem Chan.Enters.onWalk (h : k.Enters jump p y) (hk : k.OnList segs) (hp : k.hasPass p.entry p.pass)
    (hjump : ∀ j, jump = some j → j.val < k.list.length) : k.OnWalk (lengthOf segs k) y := by
  cases jump with
  | none => exact Chan.WalksTo.onWalk h hk hp
  | some j =>
    obtain rfl : y = ⟨j, 0#16, 0⟩ := h
    exact hk.onWalk_start (hjump j rfl)

/-- Where the walk goes after a pass does not depend on the place within it. -/
theorem Chan.Enters.of_pass {q : Cursor} (h : k.Enters jump p y) (he : p.entry = q.entry) (hp : p.pass = q.pass) :
    k.Enters jump q y := by
  cases jump with
  | some j => exact h
  | none =>
    unfold Chan.Enters Chan.WalksTo at h ⊢
    rwa [he, hp] at h

/-- The cursor at the end of its pass goes where the walk goes, by a pending target first (R103). -/
theorem cursorPastPass_spec (cur : Cursor) (hcur : k.hasPass cur.entry cur.pass) :
    (k.cursorPastPass cur).target = none
      ∧ (∀ y, (k.cursorPastPass cur).cursor = some y → k.Enters k.target cur y)
      ∧ ((k.cursorPastPass cur).cursor = none → k.target = none ∧ k.WalkEnds cur) := by
  obtain ⟨e, he, -⟩ := hcur
  have hrule := cursorPastPass_rule k cur
  unfold PastPassRule at hrule
  generalize k.cursorPastPass cur = x at hrule ⊢
  cases ht : k.target with
  | some j =>
    rw [ht] at hrule
    subst hrule
    refine ⟨rfl, fun y hy => (Option.some.inj hy).symm, nofun⟩
  | none =>
    rw [ht, show k.list[cur.entry.val]? = some e from he] at hrule
    subst hrule
    refine ⟨rfl, fun y hy => ⟨e, he, ?_⟩, fun hnone => ⟨rfl, e, he, ?_⟩⟩
    · dsimp only at hy
      split at hy
      · rename_i hmore
        obtain rfl := Option.some.inj hy
        exact ⟨rfl, (if_pos hmore).mpr ⟨rfl, rfl⟩⟩
      · rename_i hmore
        rw [if_neg hmore]
        cases hsucc : successor k.list cur.entry with
        | some j =>
          rw [hsucc] at hy
          obtain rfl := Option.some.inj hy
          exact ⟨rfl, rfl, rfl⟩
        | none =>
          rw [hsucc] at hy
          dsimp only at hy
          split at hy
          · rename_i hloop
            obtain rfl := Option.some.inj hy
            exact ⟨rfl, rfl, hloop.1, rfl⟩
          · cases hy
    · dsimp only at hnone
      split at hnone
      · cases hnone
      · rename_i hmore
        cases hsucc : successor k.list cur.entry with
        | some j =>
          rw [hsucc] at hnone
          cases hnone
        | none =>
          rw [hsucc] at hnone
          dsimp only at hnone
          split at hnone
          · cases hnone
          · rename_i hloop
            exact ⟨hmore, rfl, fun hmode => .inl (by_contra fun hstop => hloop ⟨hmode, hstop⟩)⟩

end

section
variable {length : EntryIx → Nat} {own own' : Option Burst} {jump jump' : Option EntryIx} {k x : Chan}
  {l r : List Cursor} {p : Cursor}

/-! ### The pass in play -/

/-- The jump to come is not seen before the end of the first pass. -/
theorem playOrder_rejump (hl : ∀ z ∈ l, z.Inner length) :
    k.PlayOrder length jump (l ++ [p]) ↔ k.PlayOrder length jump' (l ++ [p]) := by
  induction l with
  | nil => exact ⟨fun _ => playOrder_singleton, fun _ => playOrder_singleton⟩
  | cons z l ih =>
    obtain ⟨hz, hl⟩ := List.forall_mem_cons.1 hl
    obtain ⟨w, r, hr⟩ : ∃ w r, l ++ [p] = w :: r := by
      cases l with
      | nil => exact ⟨p, [], rfl⟩
      | cons w l => exact ⟨w, l ++ [p], rfl⟩
    rw [List.cons_append, hr, playOrder_inner hz, playOrder_inner hz, ← hr, ih hl]

/-- A FIFO item has its last-of-pass mark exactly where its place is the last of its pass (R101). -/
theorem Chan.Walked.last_iff (h : k.Walked length own jump) {it : Item} (hit : it ∈ k.fifo) :
    it.last = true ↔ ¬ it.place.Inner length := by
  have hmem : it.place ∈ k.ahead own :=
    List.mem_append_left _ (List.mem_append_left _ (List.mem_map.2 ⟨it, hit, rfl⟩))
  rw [h.marks it hit, decide_eq_true_iff]
  exact (h.within _ hmem).last_iff

/-- The places up to the first last one are of the pass in play (R101). -/
theorem Chan.Fetches.in_pass (h : k.Fetches length own) (hp : k.ahead own = l ++ p :: r)
    (hl : ∀ z ∈ l, z.Inner length) : p.entry = k.entry ∧ p.pass = k.pass := by
  have horder := h.order
  rw [hp] at horder
  obtain ⟨y, hy⟩ : ∃ y, (l ++ [p]).head? = some y := by
    cases l with
    | nil => exact ⟨p, rfl⟩
    | cons z l => exact ⟨z, rfl⟩
  obtain ⟨hentry, hpass⟩ := PlayOrder.same_pass (playOrder_append.1 horder).1 hl hy
  have hhead : (k.ahead own).head? = some y := by
    rw [hp]
    cases l <;> exact hy
  obtain ⟨hentry', hpass'⟩ := h.first y hhead
  exact ⟨hentry.trans hentry', hpass.trans hpass'⟩

/-- The last item of the pass in play is in the FIFO, in the burst in flight, or not yet read (R107, R110). -/
theorem Chan.Fetches.passRun_cases {c : ChanId} {w : Work} (h : w.ch.Fetches length (ownBurst c w.burst)) :
    match afterPassRun w.ch.fifo with
    | some rest => ∃ run it, w.ch.fifo = run ++ it :: rest ∧ passRun w.ch.fifo = run ++ [it]
        ∧ (∀ z ∈ run.map Item.place, z.Inner length) ∧ ¬ it.place.Inner length
    | none =>
      if carriesLast c w = true then
        ∃ l p, w.ch.fetched (ownBurst c w.burst) = l ++ [p] ∧ (∀ z ∈ l, z.Inner length) ∧ ¬ p.Inner length
      else ∀ z ∈ w.ch.fetched (ownBurst c w.burst), z.Inner length := by
  have hinner : ∀ items : List Item, (∀ it ∈ items, it ∈ w.ch.fifo ∧ it.last = false) →
      ∀ z ∈ items.map Item.place, z.Inner length := fun items hitems z hz => by
    obtain ⟨it, hit, rfl⟩ := List.mem_map.1 hz
    obtain ⟨hmem, hlast⟩ := hitems it hit
    by_contra hz
    rw [(h.last_iff hmem).2 hz] at hlast
    cases hlast
  cases hrun : afterPassRun w.ch.fifo with
  | some rest =>
    obtain ⟨run, it, hfifo, hrest, hlast, hpassRun⟩ := afterPassRun_some hrun
    refine ⟨run, it, hfifo, hpassRun, hinner run fun z hz => ⟨?_, hrest z hz⟩, (h.last_iff ?_).1 hlast⟩
    · rw [hfifo]
      exact List.mem_append_left _ hz
    · rw [hfifo]
      exact List.mem_append_right _ List.mem_cons_self
  | none =>
    have hfifo : ∀ z ∈ w.ch.fifo.map Item.place, z.Inner length := hinner _ fun it hit => by
      refine ⟨hit, eq_false_of_ne_true fun hlast => ?_⟩
      have hany := afterPassRun_isSome w.ch.fifo
      rw [hrun, List.any_eq_true.2 ⟨it, hit, hlast⟩] at hany
      cases hany
    dsimp only
    split
    · rename_i hcarries
      obtain ⟨b, g, hb, hreq, hkeep, htag, -, -, hend⟩ := (carriesLast_iff c w).1 hcarries
      have hown : ownBurst c w.burst = some b := (ownBurst_eq c _ b).2 ⟨hb, hreq⟩
      obtain ⟨hcount, hlength⟩ := h.burst b g hown hkeep htag
      obtain ⟨n, hn⟩ : ∃ n, b.count = n + 1 := ⟨b.count - 1, by omega⟩
      refine ⟨w.ch.fifo.map Item.place ++ g.place.run n, g.place.skip n, ?_, fun z hz => ?_, ?_⟩
      · unfold Chan.fetched
        rw [hown, broughtBy_kept hkeep htag, hn, Cursor.run_succ, List.append_assoc]
      · rcases List.mem_append.1 hz with hz | hz
        · exact hfifo z hz
        · exact Cursor.run_inner (by change g.index + n < length g.entry; omega) z hz
      · change ¬ g.index + n + 1 < length g.entry
        omega
    · rename_i hcarries
      rcases broughtBy_cases (ownBurst c w.burst) with hnone | ⟨b, g, hown, hkeep, htag⟩
      · intro z hz
        unfold Chan.fetched at hz
        rw [hnone, List.append_nil] at hz
        exact hfifo z hz
      · obtain ⟨hcount, hlength⟩ := h.burst b g hown hkeep htag
        obtain ⟨n, hn⟩ : ∃ n, b.count = n + 1 := ⟨b.count - 1, by omega⟩
        have hbrought : broughtBy (ownBurst c w.burst) = g.place.run b.count := hown ▸ broughtBy_kept hkeep htag
        obtain ⟨hentry, hpass⟩ := h.in_pass (l := w.ch.fifo.map Item.place) (p := g.place)
            (r := (g.place.skip 1).run n ++ w.ch.cursor.toList) (by
          unfold Chan.ahead Chan.fetched
          rw [hbrought, hn, Cursor.run_cons, List.append_assoc, List.cons_append]) hfifo
        have hlast : g.place.skip n ∈ w.ch.ahead (ownBurst c w.burst) := by
          refine List.mem_append_left _ (List.mem_append_right _ ?_)
          rw [hbrought]
          exact Cursor.mem_run.2 ⟨n, by omega, rfl⟩
        have hin : g.index + n < length g.entry := (h.within _ hlast).2
        obtain ⟨hb, hreq⟩ := (ownBurst_eq c _ b).1 hown
        have hnot : g.index + b.count ≠ g.length := fun hend =>
          hcarries ((carriesLast_iff c w).2 ⟨b, g, hb, hreq, hkeep, htag, hentry, hpass, hend⟩)
        intro z hz
        rcases List.mem_append.1 hz with hz | hz
        · exact hfifo z hz
        · rw [hbrought] at hz
          exact Cursor.run_inner (by change g.index + b.count < length g.entry; omega) z hz

/-- A channel whose cursor has not ended where all it has fetched is within the pass in play has one (R103). -/
theorem Chan.Fetches.cursor_of_inner (h : k.Fetches length own) (hnow : k.stop ≠ some .immediate)
    (hl : ∀ z ∈ k.fetched own, z.Inner length) : ∃ cur, k.cursor = some cur := by
  cases hcur : k.cursor with
  | some cur => exact ⟨cur, rfl⟩
  | none =>
    obtain ⟨z, hz, hend, -⟩ := h.ended hnow hcur
    exact absurd (hl z (List.mem_of_getLast? hz)) hend

/-- No target is pending past the last place of the pass in play. -/
theorem Chan.Fetches.target_none (h : k.Fetches length own) (hp : p ∈ k.fetched own) (hend : ¬ p.Inner length) :
    k.target = none := by
  by_contra hsome
  obtain ⟨j, hj⟩ := Option.ne_none_iff_exists'.1 hsome
  exact hend ((h.target j hj).2 p hp)

/-- The jump still to come after what is fetched is the pending target (R110). -/
theorem Chan.Fetches.jumpPast_fetched (h : k.Fetches length own) (hnow : k.stop ≠ some .immediate) {cur : Cursor}
    (hcur : k.cursor = some cur) : jumpPast length k.jump (k.fetched own) = k.target := by
  cases ht : k.target with
  | some j =>
    obtain ⟨hj, hinner⟩ := h.target j ht
    rw [jumpPast_of_inner hinner, hj]
  | none =>
    cases hj : k.jump with
    | none => exact jumpPast_none _
    | some j =>
      rcases h.stored hnow j hj with htarget | ⟨z, hz, hend⟩
      · rw [ht] at htarget
        cases htarget
      · refine jumpPast_of_end (x := z) ?_ hend
        unfold Chan.ahead at hz
        rwa [hcur, Option.toList_some, List.dropLast_concat] at hz

/-! ### Redirection by a JUMP (R110) -/

/-- The cursor moved to the target of a JUMP, behind the last place of the pass in play. -/
theorem Chan.Fetches.redirected (h : k.Fetches length own) (hp : k.fetched own = l ++ p :: r)
    (hl : ∀ z ∈ l, z.Inner length) (hend : ¬ p.Inner length) (hlist : x.list = k.list)
    (hmode : x.stat.endMode = k.stat.endMode) (hentry : x.entry = k.entry) (hpass : x.pass = k.pass)
    (hnow : x.stop ≠ some .immediate) (hplay : x.state.playing = true) {j : EntryIx} (hjump : x.jump = some j)
    (htarget : x.target = none) (hcur : x.cursor = some ⟨j, 0#16, 0⟩) (hj : k.OnWalk length ⟨j, 0#16, 0⟩)
    (hfetched : x.fetched own' = l ++ [p]) (hfifo : ∀ it ∈ x.fifo, it ∈ k.fifo) (hburst : Sized length own') :
    x.Fetches length own' := by
  have hkahead : k.ahead own = l ++ p :: (r ++ k.cursor.toList) := by
    unfold Chan.ahead
    rw [hp, List.append_assoc, List.cons_append]
  have hahead : x.ahead own' = l ++ p :: [⟨j, 0#16, 0⟩] := by
    unfold Chan.ahead
    rw [hfetched, hcur, Option.toList_some, List.append_assoc, List.singleton_append]
  have hpasses : ∀ i pass, x.hasPass i pass ↔ k.hasPass i pass := hasPass_congr hlist
  have horder : k.PlayOrder length (some j) (l ++ p :: [⟨j, 0#16, 0⟩]) := by
    have hfirst := h.order
    rw [hkahead, playOrder_append, playOrder_rejump (jump' := some j) hl] at hfirst
    rw [playOrder_append, jumpPast_of_inner hl, playOrder_end hend]
    exact ⟨hfirst.1, rfl, playOrder_singleton⟩
  refine ⟨⟨?_, fun z hz => ?_, fun it hit => h.marks it (hfifo it hit), hburst⟩, fun z hz => ?_, ?_, fun e => ?_, ?_,
    fun e => absurd e hnow, fun _ i hi => .inr ⟨p, ?_, hend⟩, ?_⟩
  · rw [hahead, hjump, playOrder_congr hlist hmode]
    exact horder
  · suffices hz : k.OnWalk length z from ⟨(hpasses _ _).2 hz.1, hz.2⟩
    rw [hahead] at hz
    rcases List.mem_append.1 hz with hz | hz
    · exact h.within z (by rw [hkahead]; exact List.mem_append_left _ hz)
    · rcases List.mem_cons.1 hz with rfl | hz
      · exact h.within z (by rw [hkahead]; exact List.mem_append_right _ List.mem_cons_self)
      · obtain rfl := List.mem_singleton.1 hz
        exact hj
  · rw [hentry, hpass]
    refine h.first z ?_
    rw [hkahead]
    rw [hahead] at hz
    cases l <;> exact hz
  · rw [hentry, hpass, hpasses]
    exact h.here
  · rw [hplay] at e
    cases e
  · rw [htarget]
    nofun
  · rw [hahead, List.dropLast_append_of_ne_nil (List.cons_ne_nil _ _), List.dropLast_cons_cons]
    exact List.mem_append_right _ List.mem_cons_self
  · rw [hcur]
    nofun

/-! ### The pass in play left (R107) -/

/-- The pass in play has ended and its places are dropped; the counter is still to rise. -/
structure Chan.Leaves (length : EntryIx → Nat) (own : Option Burst) (k : Chan) : Prop
    extends k.Walked length own none where
  enters : ∀ y, (k.ahead own).head? = some y → k.Enters k.jump ⟨k.entry, k.pass, 0⟩ y
  here : k.hasPass k.entry k.pass
  target : k.target = none
  ended : k.cursor = none →
    (∃ x, (k.fetched own).getLast? = some x ∧ ¬ x.Inner length ∧ k.WalkEnds x)
      ∨ k.ahead own = [] ∧ k.jump = none ∧ k.WalkEnds ⟨k.entry, k.pass, 0⟩

/-- The places up to the last of the pass in play dropped from the head. -/
theorem Chan.Fetches.leaves (h : k.Fetches length own) (hnow : k.stop ≠ some .immediate)
    (hp : k.fetched own = l ++ p :: x.fetched own') (hl : ∀ z ∈ l, z.Inner length) (hend : ¬ p.Inner length)
    (hx : x = { k with fifo := x.fifo }) (hfifo : ∀ it ∈ x.fifo, it ∈ k.fifo) (hburst : Sized length own') :
    x.Leaves length own' := by
  have hcourse : x.course = k.course := (congrArg Chan.course hx).trans rfl
  have hlist : x.list = k.list := (congrArg Chan.list hx).trans rfl
  have hmode : x.stat.endMode = k.stat.endMode := (congrArg (fun c : Chan => c.stat.endMode) hx).trans rfl
  have hstop : x.stop = k.stop := (congrArg Chan.stop hx).trans rfl
  have hcur : x.cursor = k.cursor := (congrArg Chan.cursor hx).trans rfl
  obtain ⟨hentry, hpass, hjump, htarget⟩ := course_eq hcourse
  have hkahead : k.ahead own = l ++ p :: x.ahead own' := by
    unfold Chan.ahead
    rw [hp, hcur, List.append_assoc, List.cons_append]
  obtain ⟨hpentry, hppass⟩ := h.in_pass hkahead hl
  have hnone : k.target = none :=
    h.target_none (p := p) (by rw [hp]; exact List.mem_append_right _ List.mem_cons_self) hend
  have hafter : k.PlayOrder length k.jump (p :: x.ahead own') := PlayOrder.right (hkahead ▸ h.order) hl
  have hsplit : k.PlayOrder length none (x.ahead own')
      ∧ ∀ y, (x.ahead own').head? = some y → k.Enters k.jump p y := by
    revert hafter
    cases x.ahead own' with
    | nil => exact fun _ => ⟨playOrder_nil, nofun⟩
    | cons y r =>
      rw [playOrder_end hend]
      exact fun ⟨henters, horder⟩ => ⟨horder, fun z hz => Option.some.inj hz ▸ henters⟩
  refine ⟨⟨?_, fun z hz => ?_, fun it hit => h.marks it (hfifo it hit), hburst⟩, fun y hy => ?_, ?_,
    htarget.trans hnone, fun hn => ?_⟩
  · rw [playOrder_congr hlist hmode]
    exact hsplit.1
  · obtain ⟨hz, hzlt⟩ := h.within z (by rw [hkahead]; exact List.mem_append_right _ (List.mem_cons_of_mem _ hz))
    exact ⟨(hasPass_congr hlist _ _).2 hz, hzlt⟩
  · rw [enters_congr hlist hmode, hjump, hentry, hpass]
    exact (hsplit.2 y hy).of_pass hpentry hppass
  · rw [hentry, hpass, hasPass_congr hlist]
    exact h.here
  · obtain ⟨z, hz, hzend, hends⟩ := h.ended hnow (hcur ▸ hn)
    rw [hp] at hz
    rcases hrest : x.fetched own' with _ | ⟨y, r⟩
    · rw [hrest, List.getLast?_concat] at hz
      obtain rfl := Option.some.inj hz
      have hempty : x.ahead own' = [] := by
        unfold Chan.ahead
        rw [hrest, hn]
        rfl
      refine .inr ⟨hempty, ?_, hends.congr hlist hmode ⟨?_, ?_⟩ (hstop ▸ id)⟩
      · rw [hjump]
        by_contra hsome
        obtain ⟨j, hj⟩ := Option.ne_none_iff_exists'.1 hsome
        rcases h.stored hnow j hj with ht | ⟨z, hz, hzend⟩
        · rw [hnone] at ht
          cases ht
        · rw [hkahead, hempty, List.dropLast_concat] at hz
          exact hzend (hl z hz)
      · exact hentry.trans hpentry.symm
      · exact hpass.trans hppass.symm
    · refine .inl ⟨z, ?_, hzend, hends.congr hlist hmode ⟨rfl, rfl⟩ (hstop ▸ id)⟩
      rw [hrest, List.getLast?_append_of_ne_nil _ (List.cons_ne_nil _ _), List.getLast?_cons_cons] at hz
      exact hz

end

end Sys2Proof.Machine
end

section
/-! ## Ticks keep the play order (R68 to R73, R106, R107, R111) -/

namespace Sys2Proof.Machine

section
variable {length : EntryIx → Nat} {own own' : Option Burst} {k x : Chan} {l : List Cursor} {c : ChanId} {w : Work}

/-! ### Places passed over within the pass in play (R106) -/

/-- Places dropped from the head that are not the last of the pass in play. -/
theorem Chan.Fetches.passed_over (h : k.Fetches length own) (hp : k.fetched own = l ++ x.fetched own)
    (hl : ∀ z ∈ l, z.Inner length) (hx : x = { k with fifo := x.fifo }) (hfifo : ∀ it ∈ x.fifo, it ∈ k.fifo) :
    x.Fetches length own := by
  have hcourse : x.course = k.course := (congrArg Chan.course hx).trans rfl
  have hlist : x.list = k.list := (congrArg Chan.list hx).trans rfl
  have hmode : x.stat.endMode = k.stat.endMode := (congrArg (fun c : Chan => c.stat.endMode) hx).trans rfl
  have hstop : x.stop = k.stop := (congrArg Chan.stop hx).trans rfl
  have hcur : x.cursor = k.cursor := (congrArg Chan.cursor hx).trans rfl
  have hstate : x.state = k.state := (congrArg Chan.state hx).trans rfl
  obtain ⟨hentry, hpass, hjump, htarget⟩ := course_eq hcourse
  have hahead : k.ahead own = l ++ x.ahead own := by
    unfold Chan.ahead
    rw [hp, hcur, List.append_assoc]
  refine ⟨⟨?_, fun z hz => ?_, fun it hit => h.marks it (hfifo it hit), h.burst⟩, fun z hz => ?_, ?_, ?_, ?_,
    fun e => ?_, fun e j hj => ?_, fun e hn => ?_⟩
  · rw [hjump, playOrder_congr hlist hmode]
    exact PlayOrder.right (hahead ▸ h.order) hl
  · obtain ⟨hz, hzlt⟩ := h.within z (by rw [hahead]; exact List.mem_append_right _ hz)
    exact ⟨(hasPass_congr hlist _ _).2 hz, hzlt⟩
  · rw [hentry, hpass]
    obtain ⟨r, hr⟩ : ∃ r, x.ahead own = z :: r := List.head?_eq_some_iff.1 hz
    exact h.in_pass (hahead.trans (congrArg _ hr)) hl
  · rw [hentry, hpass, hasPass_congr hlist]
    exact h.here
  · rw [hentry, hpass, hstate]
    exact h.start
  · rw [htarget, hjump]
    exact fun j hj => (h.target j hj).imp_right fun hinner z hz => hinner z (by
      rw [hp]
      exact List.mem_append_right _ hz)
  · obtain ⟨hempty, hnone⟩ := h.flushed (hstop ▸ e)
    rw [hahead] at hempty
    exact ⟨(List.append_eq_nil_iff.1 hempty).2, htarget.trans hnone⟩
  · refine (h.stored (hstop ▸ e) j (hjump ▸ hj)).imp htarget.trans ?_
    rintro ⟨z, hz, hend⟩
    refine ⟨z, ?_, hend⟩
    rw [hahead] at hz
    rcases hrest : x.ahead own with _ | ⟨y, r⟩
    · rw [hrest, List.append_nil] at hz
      exact absurd (hl z (List.mem_of_mem_dropLast hz)) hend
    · rw [hrest, List.dropLast_append_of_ne_nil (List.cons_ne_nil _ _)] at hz
      exact (List.mem_append.1 hz).resolve_left fun hz => hend (hl z hz)
  · obtain ⟨z, hz, hend, hends⟩ := h.ended (hstop ▸ e) (hcur ▸ hn)
    refine ⟨z, ?_, hend, hends.congr hlist hmode ⟨rfl, rfl⟩ (hstop ▸ id)⟩
    rw [hp] at hz
    rcases hrest : x.fetched own with _ | ⟨y, r⟩
    · rw [hrest, List.append_nil] at hz
      exact absurd (hl z (List.mem_of_getLast? hz)) hend
    · rwa [hrest, List.getLast?_append_of_ne_nil _ (List.cons_ne_nil _ _)] at hz

/-- The items that a tick passes over are below its index, so none is the last of the pass in play. -/
theorem Chan.Fetches.consulted (h : k.Fetches length own) {i : Nat} (hi : i < length k.entry) :
    ({ k with fifo := dropBelow i k.fifo } : Chan).Fetches length own := by
  obtain ⟨run, hfifo, hbelow, hmarks, -⟩ := dropBelow_spec i k.fifo
  have hmem : ∀ it ∈ run, it ∈ k.fifo := fun it hit => by
    rw [hfifo]
    exact List.mem_append_left _ hit
  have hfetched : k.fetched own = run.map Item.place ++ ({ k with fifo := dropBelow i k.fifo } : Chan).fetched own := by
    unfold Chan.fetched
    dsimp only
    rw [← List.append_assoc, ← List.map_append, ← hfifo]
  refine h.passed_over hfetched ?_ rfl fun it hit => ?_
  · rcases run.eq_nil_or_concat with rfl | ⟨before, it, rfl⟩
    · nofun
    · rw [List.concat_eq_append] at hbelow hmarks hmem hfetched ⊢
      rw [List.dropLast_concat] at hmarks
      have hinner : ∀ z ∈ before.map Item.place, z.Inner length := fun z hz => by
        obtain ⟨a, ha, rfl⟩ := List.mem_map.1 hz
        by_contra hz
        have hlast := (h.last_iff (hmem a (List.mem_append_left _ ha))).2 hz
        rw [hmarks a ha] at hlast
        cases hlast
      have hit : it.index < i := hbelow it (List.mem_append_right _ (List.mem_singleton_self it))
      obtain ⟨hentry, -⟩ := h.in_pass (p := it.place) (l := before.map Item.place)
        (r := ({ k with fifo := dropBelow i k.fifo } : Chan).ahead own) (by
          unfold Chan.ahead
          rw [hfetched, List.map_append, List.append_assoc, List.append_assoc]
          rfl) hinner
      intro z hz
      rw [List.map_append, List.mem_append] at hz
      rcases hz with hz | hz
      · exact hinner z hz
      · obtain rfl := List.mem_singleton.1 hz
        change it.index + 1 < length it.place.entry
        rw [hentry]
        omega
  · rw [hfifo]
    exact List.mem_append_right _ hit

/-! ### Pass ends (R69, R70, R107, R111) -/

/-- A pass left before its last place is read: the cursor moves past it and what is fetched is dropped (R107). -/
theorem Chan.Fetches.leaves_unread {segs : Vector SegRec 256} {cur : Cursor} (h : k.Fetches (lengthOf segs k) own)
    (hnow : k.stop ≠ some .immediate) (hlist : k.OnList segs) (hcur : k.cursor = some cur)
    (hinner : ∀ z ∈ k.fetched own, z.Inner (lengthOf segs k)) (hdropped : Discarded own') :
    (Chan.cursorPastPass { k with fifo := [] } cur).Leaves (lengthOf segs k) own' := by
  have hahead : k.ahead own = k.fetched own ++ cur :: [] := by
    unfold Chan.ahead
    rw [hcur]
    rfl
  obtain ⟨hentry, hpass⟩ := h.in_pass hahead hinner
  have hjump : k.jump = k.target := (jumpPast_of_inner hinner).symm.trans (h.jumpPast_fetched hnow hcur)
  obtain ⟨hplace, -⟩ := h.within cur (hahead ▸ List.mem_append_right _ List.mem_cons_self)
  have hframe := Chan.cursorPastPass_frame { k with fifo := [] } cur
  obtain ⟨htarget, henters, hends⟩ := cursorPastPass_spec (k := { k with fifo := [] }) cur hplace
  generalize Chan.cursorPastPass { k with fifo := [] } cur = x at hframe htarget henters hends ⊢
  have hxlist : x.list = k.list := (congrArg Chan.list hframe :)
  have hxmode : x.stat.endMode = k.stat.endMode := (congrArg (fun c : Chan => c.stat.endMode) hframe :)
  have hxentry : x.entry = k.entry := (congrArg Chan.entry hframe :)
  have hxpass : x.pass = k.pass := (congrArg Chan.pass hframe :)
  have hxjump : x.jump = k.jump := (congrArg Chan.jump hframe :)
  have hxstop : x.stop = k.stop := (congrArg Chan.stop hframe :)
  have hxfifo : x.fifo = [] := (congrArg Chan.fifo hframe :)
  have hxahead : x.ahead own' = x.cursor.toList := by
    unfold Chan.ahead Chan.fetched
    rw [hxfifo, broughtBy_discarded hdropped]
    rfl
  have hgoes : ∀ y, x.cursor = some y → k.Enters k.target cur y := fun y hy =>
    (enters_congr (x := { k with fifo := [] }) (k := k) rfl rfl cur y).1 (henters y hy)
  refine ⟨⟨?_, fun z hz => ?_, ?_, hdropped.sized⟩, fun y hy => ?_, ?_, htarget, fun hnone => ?_⟩
  · rw [hxahead]
    cases x.cursor
    · exact playOrder_nil
    · exact playOrder_singleton
  · rw [hxahead, Option.mem_toList] at hz
    obtain ⟨hz, hzlt⟩ := (hgoes z hz).onWalk hlist hplace fun j hj => hlist.jump j (hjump.trans hj)
    exact ⟨(hasPass_congr hxlist _ _).2 hz, hzlt⟩
  · rw [hxfifo]
    nofun
  · rw [hxahead, Option.head?_toList] at hy
    rw [enters_congr hxlist hxmode, hxjump, hxentry, hxpass, hjump]
    exact (hgoes y hy).of_pass hentry hpass
  · rw [hxentry, hxpass, hasPass_congr hxlist]
    exact h.here
  · obtain ⟨hnotarget, hwalk⟩ := hends hnone
    refine .inr ⟨by rw [hxahead, hnone]; rfl, hxjump.trans (hjump.trans hnotarget), ?_⟩
    refine Chan.WalkEnds.congr (k := { k with fifo := [] }) hwalk hxlist hxmode ?_ (hxstop ▸ id)
    exact ⟨hxentry.trans hentry.symm, hxpass.trans hpass.symm⟩

/-- The drop at a pass end leaves what the walk goes on with (R107). -/
theorem Work.dropPass_leaves {segs : Vector SegRec 256}
    (h : w.ch.Fetches (lengthOf segs w.ch) (ownBurst c w.burst)) (hnow : w.ch.stop ≠ some .immediate)
    (hlist : w.ch.OnList segs) :
    (w.dropPass c).ch.Leaves (lengthOf segs w.ch) (ownBurst c (w.dropPass c).burst) := by
  have hcases := h.passRun_cases
  unfold Work.dropPass
  cases hrun : afterPassRun w.ch.fifo with
  | some rest =>
    rw [hrun] at hcases
    obtain ⟨run, it, hfifo, -, hinner, hend⟩ := hcases
    refine h.leaves hnow (l := run.map Item.place) (p := it.place) ?_ hinner hend rfl (fun a ha => ?_) h.burst
    · unfold Chan.fetched
      rw [hfifo, List.map_append, List.map_cons, List.append_assoc, List.cons_append]
    · rw [hfifo]
      exact List.mem_append_right _ (List.mem_cons_of_mem _ ha)
  | none =>
    rw [hrun] at hcases
    have hdropped := dropBurst_discarded c w.burst
    dsimp only at hcases ⊢
    split
    · rename_i hcarries
      rw [if_pos hcarries] at hcases
      obtain ⟨l, p, hp, hinner, hend⟩ := hcases
      refine h.leaves hnow (l := l) (p := p) ?_ hinner hend rfl nofun hdropped.sized
      unfold Chan.fetched at hp ⊢
      rw [hp, broughtBy_discarded hdropped]
      rfl
    · rename_i hcarries
      rw [if_neg hcarries] at hcases
      split
      · exact h.leaves_unread hnow hlist ‹_› hcases hdropped
      · rename_i hnone
        obtain ⟨cur, hcur⟩ := h.cursor_of_inner hnow hcases
        cases hcur.symm.trans hnone

/-- Playback goes on where the walk has gone on, by a jump or without (R69). -/
theorem Chan.Leaves.goes_on (h : k.Leaves length own) (hx : x.haul = k.haul) (htarget : x.target = none)
    (hjump : x.jump = none) (hstop : x.stop = k.stop) (hnow : k.stop ≠ some .immediate)
    (hhere : x.hasPass x.entry x.pass) (hplay : x.state.playing = true)
    (henters : ∀ y, k.Enters k.jump ⟨k.entry, k.pass, 0⟩ y → y.entry = x.entry ∧ y.pass = x.pass)
    (hgoes : k.jump = none → ¬ k.WalkEnds ⟨k.entry, k.pass, 0⟩) : x.Fetches length own := by
  obtain ⟨hl, he, -, hcur⟩ := haul_eq hx
  refine ⟨hjump.symm ▸ h.toWalked.congr hx, fun y hy => ?_, hhere, fun e => ?_, ?_, fun e => ?_, ?_, fun _ hn => ?_⟩
  · rw [ahead_congr hx] at hy
    exact henters y (h.enters y hy)
  · rw [hplay] at e
    cases e
  · rw [htarget]
    nofun
  · exact absurd (hstop.symm.trans e) hnow
  · rw [hjump]
    nofun
  · rcases h.ended (hcur ▸ hn) with ⟨z, hz, hend, hends⟩ | ⟨-, hnone, hends⟩
    · exact ⟨z, (fetched_congr hx).symm ▸ hz, hend, hends.congr hl he ⟨rfl, rfl⟩ (hstop ▸ id)⟩
    · exact absurd hends (hgoes hnone)

end

end Sys2Proof.Machine
end

section
/-! ### A channel in order, through the tick -/

namespace Sys2Proof.Machine

/-- What the play order rests on besides: where a jump and an IMMEDIATE stop may stand, and the pass of a wait. -/
structure Chan.Settled (k : Chan) : Prop where
  jump : k.jump.isSome → k.state = .running ∨ k.state = .stopping
  now : k.stop = some .immediate → k.state = .stopping ∨ k.state = .waiting
  waits : k.state = .waiting → k.pass = 0#16

/-- The play-order law of one channel, with what it rests on. -/
structure Chan.InOrder (segs : Vector SegRec 256) (own : Option Burst) (k : Chan) : Prop where
  settled : k.Settled
  fetches : k.state.active = true → k.Fetches (lengthOf segs k) own

/-- The play-order law of the channel that an event deals with. -/
abbrev Work.InOrder (segs : Vector SegRec 256) (c : ChanId) (w : Work) : Prop := w.ch.InOrder segs (ownBurst c w.burst)

/-- What the play-order law and what it rests on see of a channel. -/
def Chan.sight (k : Chan) :
    (List Entry × EndMode × List Item × Option Cursor) × (EntryIx × Half × Option EntryIx × Option EntryIx)
      × Option StopPoint × ChanState :=
  (k.haul, k.course, k.stop, k.state)

theorem sight_eq {k x : Chan} (h : x.sight = k.sight) :
    x.haul = k.haul ∧ x.course = k.course ∧ x.stop = k.stop ∧ x.state = k.state := by
  simpa only [Chan.sight, Prod.mk.injEq] using h

section
variable {segs : Vector SegRec 256} {own : Option Burst} {k x : Chan} {c : ChanId} {w : Work}

theorem Chan.Fetches.on_list (h : x.Fetches (lengthOf segs k) own) (hl : x.list = k.list) :
    x.Fetches (lengthOf segs x) own := by
  rwa [show lengthOf segs x = lengthOf segs k from funext (lengthOf_congr (fun _ => rfl) hl)]

/-- The course of an active channel is followed from another where the law sees the same of both. -/
theorem Chan.InOrder.fetches_congr (h : k.InOrder segs own) (hk : k.state.active = true) (hx : x.haul = k.haul)
    (hc : x.course = k.course) (hs : StopsAlike k.stop x.stop)
    (hp : x.state.playing = false → k.state.playing = false) : x.Fetches (lengthOf segs x) own :=
  ((h.fetches hk).congr hx hc hs hp).on_list (haul_eq hx).1

theorem Chan.InOrder.congr (h : k.InOrder segs own) (hx : x.sight = k.sight) : x.InOrder segs own := by
  obtain ⟨hhaul, hcourse, hstop, hstate⟩ := sight_eq hx
  obtain ⟨-, hpass, hjump, -⟩ := course_eq hcourse
  refine ⟨⟨?_, ?_, ?_⟩, fun ha => h.fetches_congr (hstate ▸ ha) hhaul hcourse (.of_eq hstop) (hstate ▸ id)⟩
  · rw [hjump, hstate]
    exact h.settled.jump
  · rw [hstop, hstate]
    exact h.settled.now
  · rw [hpass, hstate]
    exact h.settled.waits

/-- A channel that is not active, with neither a jump nor an IMMEDIATE stop, has nothing to keep in order. -/
theorem Chan.InOrder.inactive (ha : k.state.active = false) (hjump : k.jump = none) (hnow : k.stop ≠ some .immediate) :
    k.InOrder segs own := by
  refine ⟨⟨fun h => ?_, fun h => absurd h hnow, fun h => ?_⟩, fun h => ?_⟩
  · rw [hjump] at h
    cases h
  · rw [h] at ha
    cases ha
  · rw [ha] at h
    cases h

theorem Chan.Settled.jump_none (h : k.Settled) (hr : k.state ≠ .running) (hs : k.state ≠ .stopping) :
    k.jump = none := by
  by_contra hsome
  rcases h.jump (Option.isSome_iff_ne_none.2 hsome) with e | e
  · exact hr e
  · exact hs e

theorem Chan.Settled.not_now (h : k.Settled) (hs : k.state ≠ .stopping) (hw : k.state ≠ .waiting) :
    k.stop ≠ some .immediate := fun e => (h.now e).elim hs hw

/-- Outside play there is neither a jump nor an IMMEDIATE stop. -/
theorem Chan.Settled.at_rest (h : k.Settled) (hrest : k.state.playing = false) :
    k.jump = none ∧ k.stop ≠ some .immediate := by
  have hne : ∀ y : ChanState, y.playing = true → k.state ≠ y := fun y hy e => by
    rw [e, hy] at hrest
    cases hrest
  exact ⟨h.jump_none (hne _ rfl) (hne _ rfl), h.not_now (hne _ rfl) (hne _ rfl)⟩

/-- A channel moving through its passes, in order. -/
structure Chan.Going (segs : Vector SegRec 256) (own : Option Burst) (k : Chan) : Prop extends k.InOrder segs own where
  going : k.state = .running ∨ k.state = .stopping

theorem Chan.Going.playing (h : k.Going segs own) : k.state.playing = true :=
  (ChanState.playing_iff _).2 (h.going.imp_right .inr)

theorem Chan.Going.walk (h : k.Going segs own) : k.Fetches (lengthOf segs k) own :=
  h.fetches (ChanState.active_of_playing h.playing)

theorem Chan.Going.congr (h : k.Going segs own) (hx : x.sight = k.sight) : x.Going segs own := by
  obtain ⟨-, -, -, hstate⟩ := sight_eq hx
  exact ⟨h.toInOrder.congr hx, hstate ▸ h.going⟩

/-- A channel in play, moving, is in order where it fetches in order and is not to stop at once but in STOPPING. -/
theorem Chan.Going.of_fetches (h : k.Fetches (lengthOf segs k) own) (hgoing : k.state = .running ∨ k.state = .stopping)
    (hnow : k.stop ≠ some .immediate) : k.Going segs own := by
  refine ⟨⟨⟨fun _ => hgoing, fun e => absurd e hnow, fun e => ?_⟩, fun _ => h⟩, hgoing⟩
  rcases hgoing with hs | hs <;> rw [hs] at e <;> cases e

theorem applied_sight (k : Chan) (due : Bool) : (applied k due).1.sight = k.sight := by
  have hframe := applied_frame k due
  exact (congrArg Chan.sight hframe :)

theorem Work.startOfTick_sight (w : Work) : w.startOfTick.ch.sight = w.ch.sight ∧ w.startOfTick.burst = w.burst := by
  rw [w.startOfTick_eq]
  exact ⟨applied_sight _ _, rfl⟩

theorem Work.startEntry_sight (w : Work) : w.startEntry.ch.sight = w.ch.sight ∧ w.startEntry.burst = w.burst := by
  rw [w.startEntry_eq]
  exact ⟨applied_sight _ _, rfl⟩

/-! ### Entries entered, passes ended -/

/-- Entering an entry moves the place and may begin a wait; nothing else of it is seen (R68). -/
theorem Work.enterEntry_sight (j : EntryIx) (carry : Nat) (w : Work) :
    (w.enterEntry j carry).burst = w.burst
      ∧ ((w.enterEntry j carry).ch.sight = ({ w.ch with entry := j, pass := 0#16 } : Chan).sight
        ∨ (w.enterEntry j carry).ch.sight
          = ({ w.ch with entry := j, pass := 0#16, state := .waiting } : Chan).sight) := by
  rw [w.enterEntry_eq]
  split_ifs
  · obtain ⟨hsight, hburst⟩ :=
      Work.startEntry_sight { w with ch := { w.ch with entry := j, pass := 0#16, pos := carry } }
    exact ⟨hburst, .inl hsight⟩
  · obtain ⟨hsight, hburst⟩ :=
      Work.startEntry_sight { w with ch := { w.ch with entry := j, pass := 0#16, advLatch := false, pos := 0 } }
    exact ⟨hburst, .inl hsight⟩
  · exact ⟨rfl, .inr rfl⟩

/-- An entry entered by a channel that fetches from there in order (R68). -/
theorem Work.enterEntry_inOrder {j : EntryIx} {carry : Nat}
    (h : ({ w.ch with entry := j, pass := 0#16 } : Chan).Going segs (ownBurst c w.burst)) (hjump : w.ch.jump = none) :
    (w.enterEntry j carry).InOrder segs c := by
  obtain ⟨hburst, hsight⟩ := w.enterEntry_sight j carry
  unfold Work.InOrder
  rw [hburst]
  rcases hsight with hsight | hsight
  · exact h.toInOrder.congr hsight
  · have hwaits :
        ({ w.ch with entry := j, pass := 0#16, state := .waiting } : Chan).InOrder segs (ownBurst c w.burst) := by
      refine ⟨⟨fun e => ?_, fun _ => .inr rfl, fun _ => rfl⟩, fun _ => ?_⟩
      · rw [show w.ch.jump.isSome = false from congrArg Option.isSome hjump] at e
        cases e
      · exact h.fetches_congr (ChanState.active_of_playing h.playing) rfl rfl (.of_eq rfl) nofun
    exact hwaits.congr hsight

theorem Work.enterIdle_inOrder (w : Work) : (w.enterIdle c).InOrder segs c := by
  have hidle : w.ch.toIdle.InOrder segs (ownBurst c (dropBurst c w.burst)) := .inactive rfl rfl nofun
  rw [w.enterIdle_eq]
  exact hidle.congr (applied_sight _ _)

theorem Work.halt_inOrder (w : Work) (cause : FaultCause) : (w.halt c cause).InOrder segs c := by
  have hhalted : (w.ch.toHalted cause).InOrder segs (ownBurst c (dropBurst c w.burst)) := .inactive rfl rfl nofun
  rw [w.halt_eq]
  exact hhalted.congr (applied_sight _ _)

/-- A jump out of a list place redirects the Fetcher to the entry that is entered (R111). -/
theorem Work.refetched_enterEntry_inOrder (h : w.ch.OnList segs) {j : EntryIx} (hj : j.val < w.ch.list.length)
    (hgoing : w.ch.state = .running ∨ w.ch.state = .stopping) (hnow : w.ch.stop ≠ some .immediate)
    (hjump : w.ch.jump = none) (carry : Nat) : ((w.refetchFrom c j).enterEntry j carry).InOrder segs c := by
  have hplay : w.ch.state.playing = true := (ChanState.playing_iff _).2 (hgoing.imp_right .inr)
  refine Work.enterEntry_inOrder (w := w.refetchFrom c j) (.of_fetches ?_ hgoing hnow) hjump
  refine Chan.fetches_afresh rfl rfl rfl hjump rfl hnow (dropBurst_discarded c w.burst) hj (h.length_pos hj) fun e => ?_
  exact absurd hplay (ne_true_of_eq_false e)

/-- Whether the entry has more passes, once the counter has risen (R43, R69). -/
theorem morePasses_counted {e : Entry} {pass : Half} (h : e.repeats = 0#16 ∨ pass.toNat < e.repeats.toNat) :
    e.morePasses (pass + 1#16).toNat = true ↔ e.repeats = 0#16 ∨ pass.toNat + 1 < e.repeats.toNat := by
  unfold Entry.morePasses
  rw [Bool.or_eq_true, decide_eq_true_iff, decide_eq_true_iff]
  rcases h with h0 | hlt
  · exact ⟨fun _ => .inl h0, fun _ => .inl h0⟩
  · rw [pass_succ_toNat hlt]

/-- List end is in order where the first entry is entered in order (R70). -/
theorem Work.listEnd_inOrder {carry : Nat} {afterLeave : Bool}
    (h : w.ch.loops = true → ((if afterLeave = true then w.refetchFrom c 0 else w).enterEntry 0 carry).InOrder segs c) :
    (w.listEnd c carry afterLeave).InOrder segs c := by
  unfold Work.listEnd
  split
  · exact h ‹_›
  · dsimp only
    split <;> exact Work.enterIdle_inOrder _

/-! ### Where the walk goes, by what the entry says (R44, R69, R70, R103) -/

/-- After a pass that is followed by another of its entry. -/
theorem Chan.WalksTo.of_more {p y : Cursor} {e : Entry} (h : k.WalksTo p y) (he : k.entryAt p.entry = some e)
    (hmore : e.repeats = 0#16 ∨ p.pass.toNat + 1 < e.repeats.toNat) :
    y.entry = p.entry ∧ y.pass = p.pass + 1#16 := by
  obtain ⟨e', he', -, hy⟩ := h
  obtain rfl : e = e' := Option.some.inj (he.symm.trans he')
  rwa [if_pos hmore] at hy

/-- After the last pass of an entry, to its successor or from list end to entry 0. -/
theorem Chan.WalksTo.of_done {p y : Cursor} {e : Entry} (h : k.WalksTo p y) (he : k.entryAt p.entry = some e)
    (hdone : ¬ (e.repeats = 0#16 ∨ p.pass.toNat + 1 < e.repeats.toNat)) :
    y.entry = (successor k.list p.entry).getD 0 ∧ y.pass = 0#16 := by
  obtain ⟨e', he', -, hy⟩ := h
  obtain rfl : e = e' := Option.some.inj (he.symm.trans he')
  rw [if_neg hdone] at hy
  obtain ⟨hpass, hnext⟩ := hy
  refine ⟨?_, hpass⟩
  cases hsucc : successor k.list p.entry with
  | some j =>
    rw [hsucc] at hnext
    exact hnext
  | none =>
    rw [hsucc] at hnext
    exact hnext.2

theorem Chan.WalkEnds.no_more {p : Cursor} {e : Entry} (h : k.WalkEnds p) (he : k.entryAt p.entry = some e) :
    ¬ (e.repeats = 0#16 ∨ p.pass.toNat + 1 < e.repeats.toNat) := by
  obtain ⟨e', he', hend, -⟩ := h
  obtain rfl : e = e' := Option.some.inj (he.symm.trans he')
  exact hend

theorem Chan.WalkEnds.no_successor {p : Cursor} (h : k.WalkEnds p) : successor k.list p.entry = none := by
  obtain ⟨-, -, -, hsucc, -⟩ := h
  exact hsucc

/-- LOOP goes on from list end where no stop ends it. -/
theorem Chan.WalkEnds.no_loop {p : Cursor} (h : k.WalkEnds p) (hpass : k.stop ≠ some .atPass) : ¬ k.loops = true := by
  intro hloop
  obtain ⟨-, -, -, -, hend⟩ := h
  obtain ⟨hmode, hlist⟩ := (loops_iff k).1 hloop
  exact (hend hmode).elim hlist hpass

/-! ### The pass in play left -/

/-- The entry that the walk has gone to is entered (R68). -/
theorem Work.enterEntry_after_leaving (h : w.ch.Leaves (lengthOf segs w.ch) (ownBurst c w.burst))
    (hgoing : w.ch.state = .running ∨ w.ch.state = .stopping) (hnow : w.ch.stop ≠ some .immediate) {j : EntryIx}
    (hj : j.val < w.ch.list.length) (henters : ∀ y, w.ch.Enters w.ch.jump ⟨w.ch.entry, w.ch.pass, 0⟩ y →
      y.entry = j ∧ y.pass = 0#16) (hgoes : w.ch.jump = none → ¬ w.ch.WalkEnds ⟨w.ch.entry, w.ch.pass, 0⟩)
    (carry : Nat) :
    (Work.enterEntry j carry ⟨{ w.ch.passCounted with jump := none }, w.burst, w.raised⟩).InOrder segs c := by
  have hplay : w.ch.state.playing = true := (ChanState.playing_iff _).2 (hgoing.imp_right .inr)
  refine Work.enterEntry_inOrder (.of_fetches (Chan.Fetches.on_list ?_ rfl) hgoing hnow) rfl
  exact h.goes_on rfl h.target rfl rfl hnow (hasPass_zero hj) hplay henters hgoes

/-- The next pass of the same entry (case 4 of R69). -/
theorem Chan.Leaves.next_pass {e : Entry} (h : k.Leaves (lengthOf segs k) own)
    (hgoing : k.state = .running ∨ k.state = .stopping) (hnow : k.stop ≠ some .immediate) (hjump : k.jump = none)
    (he : k.entryAt k.entry = some e) (hmore : e.repeats = 0#16 ∨ k.pass.toNat + 1 < e.repeats.toNat) :
    k.passCounted.Going segs own := by
  have hplay : k.state.playing = true := (ChanState.playing_iff _).2 (hgoing.imp_right .inr)
  have hpass : k.hasPass k.entry (k.pass + 1#16) := by
    refine ⟨e, he, hmore.imp_right fun hlt => ?_⟩
    rw [pass_succ_toNat (Nat.lt_of_succ_lt hlt)]
    exact hlt
  refine .of_fetches (Chan.Fetches.on_list (k := k) ?_ rfl) hgoing hnow
  refine h.goes_on rfl h.target hjump rfl hnow hpass hplay (fun y hy => ?_) fun _ hends => hends.no_more he hmore
  rw [hjump] at hy
  exact Chan.WalksTo.of_more hy he hmore

/-- What follows a pass end leads playback where the walk has gone (R69, R70, R111). -/
theorem Work.afterPass_inOrder (h : w.ch.Leaves (lengthOf segs w.ch) (ownBurst c w.burst)) (hlist : w.ch.OnList segs)
    (hgoing : w.ch.state = .running ∨ w.ch.state = .stopping) (hnow : w.ch.stop ≠ some .immediate) (carry : Nat) :
    (({ w with ch := w.ch.passCounted } : Work).afterPass c carry).InOrder segs c := by
  have hfirst : (0 : EntryIx).val < w.ch.list.length := Nat.lt_of_le_of_lt (Nat.zero_le _) hlist.entry
  have henter := fun {j : EntryIx} (hj : j.val < w.ch.list.length) henters hgoes =>
    Work.enterEntry_after_leaving h hgoing hnow hj henters hgoes carry
  obtain ⟨e, he, hhere⟩ := h.here
  rw [Work.afterPass_eq]
  split
  · exact Work.enterIdle_inOrder (w := { w with ch := { w.ch.passCounted with pos := carry } })
  rename_i hatPass
  cases hjump : w.ch.jump with
  | some t =>
    rw [show w.ch.passCounted.jump = some t from hjump]
    refine henter (hlist.jump t hjump) (fun y hy => ?_) fun hnone => ?_
    · rw [hjump] at hy
      obtain rfl : y = ⟨t, 0#16, 0⟩ := hy
      exact ⟨rfl, rfl⟩
    · cases hjump.symm.trans hnone
  | none =>
    have hself : ({ w.ch.passCounted with jump := none } : Chan) = w.ch.passCounted := by
      rw [← hjump]
      rfl
    rw [hself, hjump] at henter
    have hmore := morePasses_counted hhere
    have hleft : ({ w.ch.passCounted with advLatch := false } : Chan).OnList segs := hlist.congr rfl
    rw [show w.ch.passCounted.jump = none from hjump]
    dsimp only
    split_ifs with hleave hany
    · split
      · rename_i t ht
        exact Work.refetched_enterEntry_inOrder (w := ⟨{ w.ch.passCounted with advLatch := false }, w.burst, w.raised⟩)
          hleft (hlist.successor_lt ht) hgoing hnow hjump carry
      · refine Work.listEnd_inOrder fun _ => ?_
        exact Work.refetched_enterEntry_inOrder (w := ⟨{ w.ch.passCounted with advLatch := false }, w.burst, w.raised⟩)
          hleft hfirst hgoing hnow hjump carry
    · rw [show w.ch.passCounted.entryAt w.ch.passCounted.entry = some e from he, Option.any_some] at hany
      exact (h.next_pass hgoing hnow hjump he (hmore.1 hany)).toInOrder.congr (applied_sight _ _)
    · rw [show w.ch.passCounted.entryAt w.ch.passCounted.entry = some e from he, Option.any_some] at hany
      have hnext : ∀ y, w.ch.Enters none ⟨w.ch.entry, w.ch.pass, 0⟩ y →
          y.entry = (successor w.ch.list w.ch.entry).getD 0 ∧ y.pass = 0#16 := fun y hy =>
        Chan.WalksTo.of_done hy he fun hm => hany (hmore.2 hm)
      split
      · rename_i t ht
        have ht : successor w.ch.list w.ch.entry = some t := ht
        rw [ht] at hnext
        exact henter (hlist.successor_lt ht) hnext fun _ hends => by cases hends.no_successor.symm.trans ht
      · rename_i hnone
        have hnone : successor w.ch.list w.ch.entry = none := hnone
        rw [hnone] at hnext
        exact Work.listEnd_inOrder fun hloop => henter hfirst hnext fun _ hends => hends.no_loop hatPass hloop

end

end Sys2Proof.Machine
end

section
/-! ### A tick keeps its channel in order -/

namespace Sys2Proof.Machine

section
variable {segs : Vector SegRec 256} {own : Option Burst} {k x : Chan} {c : ChanId} {w : Work}

theorem Work.passEnd_inOrder (h : w.ch.Going segs (ownBurst c w.burst)) (hnow : w.ch.stop ≠ some .immediate)
    (hlist : w.ch.OnList segs) (length : Nat) : (w.passEnd c length).InOrder segs c := by
  have hframe := w.dropPass_frame c
  have hleaves := Work.dropPass_leaves h.walk hnow hlist
  rw [show lengthOf segs w.ch = lengthOf segs (w.dropPass c).ch from
    funext (lengthOf_congr (fun _ => rfl) (congrArg Chan.list hframe :).symm)] at hleaves
  have hstate : (w.dropPass c).ch.state = w.ch.state := (congrArg Chan.state hframe :)
  have hstop : (w.dropPass c).ch.stop = w.ch.stop := (congrArg Chan.stop hframe :)
  rw [w.passEnd_eq]
  exact Work.afterPass_inOrder hleaves (hlist.congr (congrArg Chan.stand hframe :)) (hstate ▸ h.going) (hstop ▸ hnow) _

/-- The channel as the beginning of a tick leaves it, by what the tick does to the lane. -/
def Work.BegunInOrder (segs : Vector SegRec 256) (c : ChanId) (w : Work) : Phase → Prop
  | .idleWord | .parkWord | .hold => w.InOrder segs c
  | .stopNow => True
  | .play => w.ch.Going segs (ownBurst c w.burst)

/-- The start of an armed channel's play (R67). -/
theorem Work.start_inOrder (h : w.InOrder segs c) (hs : w.ch.state = .armed) :
    ({ w.ch with entry := 0, pass := 0#16, state := .running } : Chan).Going segs (ownBurst c w.burst) := by
  obtain ⟨hentry, hpass⟩ := (h.fetches (congrArg _ hs)).start (congrArg _ hs)
  have hcourse : ({ w.ch with entry := 0, pass := 0#16, state := .running } : Chan).course = w.ch.course := by
    unfold Chan.course
    dsimp only
    rw [hentry, hpass]
  refine .of_fetches (h.fetches_congr (congrArg _ hs) rfl hcourse (.of_eq rfl) nofun) (.inl rfl) ?_
  exact (h.settled.at_rest (congrArg _ hs)).2

/-- An entry entered at the beginning of a tick (R67, R68). -/
theorem Work.enterEntry_begun {j : EntryIx} {carry : Nat}
    (h : ({ w.ch with entry := j, pass := 0#16 } : Chan).Going segs (ownBurst c w.burst)) (hjump : w.ch.jump = none) :
    (w.enterEntry j carry).BegunInOrder segs c
      (if (w.enterEntry j carry).ch.state = .waiting then .hold else .play) := by
  have hin : (w.enterEntry j carry).InOrder segs c := Work.enterEntry_inOrder h hjump
  split
  · exact hin
  · rename_i hwait
    refine ⟨hin, ?_⟩
    obtain ⟨-, hsight | hsight⟩ := w.enterEntry_sight j carry
    · rw [(sight_eq hsight).2.2.2]
      exact h.going
    · exact absurd (sight_eq hsight).2.2.2 hwait

/-- The exit of a wait (R71). -/
theorem Work.exit_inOrder (h : w.InOrder segs c) (hs : w.ch.state = .waiting) (hnow : w.ch.stop ≠ some .immediate)
    {state : ChanState} (hstate : state = .running ∨ state = .stopping) :
    ({ w.ch with pass := 0#16, state := state } : Chan).Going segs (ownBurst c w.burst) := by
  have hplay : state.playing = true := (ChanState.playing_iff _).2 (hstate.imp_right .inr)
  have hcourse : ({ w.ch with pass := 0#16, state := state } : Chan).course = w.ch.course := by
    unfold Chan.course
    dsimp only
    rw [h.settled.waits hs]
  refine .of_fetches (h.fetches_congr (congrArg _ hs) rfl hcourse (.of_eq rfl) fun e => ?_) hstate hnow
  exact absurd hplay (ne_true_of_eq_false e)

theorem Work.beginTick_inOrder (h : w.InOrder segs c) : w.beginTick.1.BegunInOrder segs c w.beginTick.2 := by
  obtain ⟨hsight, hburst⟩ := w.startOfTick_sight
  have hstart : w.startOfTick.InOrder segs c := by
    unfold Work.InOrder
    rw [hburst]
    exact Chan.InOrder.congr h hsight
  obtain ⟨-, -, -, hstate⟩ := sight_eq hsight
  unfold Work.beginTick
  cases hs : w.ch.state with
  | idle | arming | halted => exact h
  | armed =>
    dsimp only
    split
    · obtain ⟨hjump, -⟩ := h.settled.at_rest (congrArg _ hs)
      exact Work.enterEntry_begun ((Work.start_inOrder h hs).congr rfl) hjump
    · exact h
  | running =>
    exact ⟨hstart, .inl (hstate.trans hs)⟩
  | stopping =>
    dsimp only
    split_ifs
    · trivial
    · exact ⟨hstart, .inr (hstate.trans hs)⟩
  | waiting =>
    have hexit : ∀ {state : ChanState}, w.startOfTick.ch.stop ≠ some .immediate → state = .running ∨ state = .stopping →
        Work.BegunInOrder segs c (Work.startEntry { w.startOfTick with ch := { w.startOfTick.ch with
          startRequest := false, pos := 0, pass := 0#16, state := state } }) .play := fun hnow hgoing => by
      have hgo := Work.exit_inOrder hstart (hstate.trans hs) hnow hgoing
      obtain ⟨hsight, hburst⟩ := Work.startEntry_sight { w.startOfTick with ch := { w.startOfTick.ch with
          startRequest := false, pos := 0, pass := 0#16, state := _ } }
      unfold Work.BegunInOrder
      dsimp only
      rw [hburst]
      exact hgo.congr hsight
    dsimp only
    split_ifs with hnow hreq hend
    · trivial
    · exact hexit hnow (.inr rfl)
    · exact hexit hnow (.inl rfl)
    · exact hstart

/-- Between the two parts of a tick, by what is left to be done. -/
def Work.WordedInOrder (segs : Vector SegRec 256) (c : ChanId) (w : Work) : Rest → Prop
  | .nothing => w.InOrder segs c
  | .stop | .starve => True
  | .moved => w.ch.Going segs (ownBurst c w.burst) ∧ w.ch.stop ≠ some .immediate

theorem Work.compute_sight (a b : Sample) (h : Int) (w : Work) :
    (w.compute a b h).ch.sight = w.ch.sight ∧ (w.compute a b h).burst = w.burst := by
  unfold Work.compute Work.clipTick
  dsimp only [Chan.place, Chan.countMarkers, Chan.compareMarkers]
  split_ifs <;> exact ⟨rfl, rfl⟩

theorem Work.stall_sight (w : Work) : w.stall.ch.sight = w.ch.sight ∧ w.stall.burst = w.burst := by
  rw [w.stall_eq]
  exact ⟨rfl, rfl⟩

/-- The samples of a tick are in the FIFO. -/
theorem fetchPair_fifo {n : Nat} {ab : Sample × Sample} (h : k.fetchPair n = some ab) : k.fifo ≠ [] := by
  intro hnil
  unfold Chan.fetchPair at h
  rw [hnil] at h
  cases h

/-- A channel that has fetched an item is not flushed. -/
theorem Chan.Fetches.not_flushed {length : EntryIx → Nat} (h : k.Fetches length own) (hfifo : k.fifo ≠ []) :
    k.stop ≠ some .immediate := fun hnow => by
  obtain ⟨hahead, -⟩ := h.flushed hnow
  obtain ⟨hfetched, -⟩ := List.append_eq_nil_iff.1 hahead
  exact hfifo (List.map_eq_nil_iff.1 (List.append_eq_nil_iff.1 hfetched).1)

/-- A channel that has passed over the items below its index goes on (R106). -/
theorem Work.consult_going (h : w.ch.Going segs (ownBurst c w.burst)) (hpass : w.ch.InPass segs) :
    w.consult.ch.Going segs (ownBurst c w.burst) := by
  have hindex : posIndex w.ch.pos < lengthOf segs w.ch w.ch.entry := Nat.div_lt_of_lt_mul (Nat.mul_comm _ _ ▸ hpass)
  exact ⟨⟨⟨h.settled.jump, h.settled.now, h.settled.waits⟩, fun _ => (h.walk.consulted hindex).on_list rfl⟩, h.going⟩

theorem Work.tickWord_inOrder (h : w.InOrder segs c) (hwalk : w.ch.Walk segs) (partner : Int) :
    (w.tickWord segs partner).1.WordedInOrder segs c (w.tickWord segs partner).2 := by
  have hbegun := Work.beginTick_inOrder h
  have hplace := Work.beginTick_walk hwalk
  unfold Work.tickWord
  generalize w.beginTick = r at hbegun hplace ⊢
  obtain ⟨w1, phase⟩ := r
  cases phase with
  | idleWord | parkWord | hold => exact Chan.InOrder.congr hbegun rfl
  | stopNow => trivial
  | play =>
    obtain ⟨-, hpass⟩ := hplace
    have hgoing := Work.consult_going hbegun hpass
    dsimp only
    split
    · rename_i a b hpair
      obtain ⟨hsight, hburst⟩ := w1.consult.compute_sight a b partner
      refine ⟨?_, ?_⟩
      · rw [hburst]
        exact hgoing.congr hsight
      · rw [(sight_eq hsight).2.2.1]
        exact hgoing.walk.not_flushed (fetchPair_fifo hpair)
    · obtain ⟨hsight, hburst⟩ := w1.consult.stall_sight
      dsimp only
      split
      · trivial
      · unfold Work.WordedInOrder Work.InOrder
        dsimp only
        rw [hburst]
        exact hgoing.toInOrder.congr hsight

theorem Work.tickEnd_inOrder {r : Rest} (h : w.WordedInOrder segs c r) (hwalk : w.WalkedTo segs r) :
    (w.tickEnd segs c r).InOrder segs c := by
  cases r with
  | nothing => exact h
  | stop => exact Work.enterIdle_inOrder w
  | starve => exact Work.halt_inOrder w _
  | moved =>
    obtain ⟨hgoing, hnow⟩ := h
    obtain ⟨hlist, -⟩ := hwalk
    unfold Work.tickEnd
    dsimp only
    split
    · exact Work.passEnd_inOrder hgoing hnow hlist _
    · exact hgoing.toInOrder

end

end Sys2Proof.Machine
end

section
/-! ### Events of one channel drop no other channel's burst (R113) -/

namespace Sys2Proof.Machine

/-- The burst in flight of every other channel is as it was. -/
def Spares (c : ChanId) (o o' : Option Burst) : Prop := ∀ d, d ≠ c → ownBurst d o' = ownBurst d o

section
variable {c : ChanId} {o o' o'' : Option Burst}

theorem Spares.refl (c : ChanId) (o : Option Burst) : Spares c o o := fun _ _ => rfl

theorem Spares.trans (h : Spares c o o') (k : Spares c o' o'') : Spares c o o'' := fun d hd => (k d hd).trans (h d hd)

theorem Spares.of_eq (h : o' = o) : Spares c o o' := h ▸ .refl c o

theorem dropBurst_spares (c : ChanId) (o : Option Burst) : Spares c o (dropBurst c o) := by
  intro d hd
  cases o with
  | none => rfl
  | some b =>
    by_cases hb : b.isOf c = true
    · have hnot : ∀ x : Burst, x.requester = b.requester → x.isOf d = false := fun x hx =>
        decide_eq_false fun e => hd (Requester.fetcher.inj ((hx.symm.trans e).symm.trans (of_decide_eq_true hb)))
      unfold dropBurst
      dsimp only
      rw [if_pos hb]
      unfold ownBurst
      dsimp only
      rw [hnot b rfl, hnot { b with keep := false } rfl]
      rfl
    · unfold dropBurst
      dsimp only
      rw [if_neg hb]

theorem Work.dropPass_spares (c : ChanId) (w : Work) : Spares c w.burst (w.dropPass c).burst := by
  unfold Work.dropPass
  split
  · exact .refl c _
  · exact dropBurst_spares c _

theorem Work.enterIdle_spares (c : ChanId) (w : Work) : Spares c w.burst (w.enterIdle c).burst := by
  rw [w.enterIdle_eq]
  exact dropBurst_spares c _

theorem Work.halt_spares (c : ChanId) (cause : FaultCause) (w : Work) : Spares c w.burst (w.halt c cause).burst := by
  rw [w.halt_eq]
  exact dropBurst_spares c _

theorem Work.enterEntry_burst (j : EntryIx) (carry : Nat) (w : Work) : (w.enterEntry j carry).burst = w.burst :=
  (w.enterEntry_sight j carry).1

theorem Work.listEnd_spares (c : ChanId) (carry : Nat) (afterLeave : Bool) (w : Work) :
    Spares c w.burst (w.listEnd c carry afterLeave).burst := by
  unfold Work.listEnd
  split
  · rw [Work.enterEntry_burst]
    split
    · exact dropBurst_spares c _
    · exact .refl c _
  · dsimp only
    split <;> exact Work.enterIdle_spares c { w with ch := { w.ch with pos := carry } }

theorem Work.afterPass_spares (c : ChanId) (carry : Nat) (w : Work) : Spares c w.burst (w.afterPass c carry).burst := by
  rw [w.afterPass_eq]
  split
  · exact Work.enterIdle_spares c { w with ch := { w.ch with pos := carry } }
  · split
    · exact .of_eq (Work.enterEntry_burst _ _ _)
    · split_ifs
      · split
        · rw [Work.enterEntry_burst]
          exact dropBurst_spares c _
        · exact Work.listEnd_spares c _ _ { w with ch := { w.ch with advLatch := false } }
      · exact .refl c _
      · split
        · exact .of_eq (Work.enterEntry_burst _ _ _)
        · exact Work.listEnd_spares c _ _ _

theorem Work.passEnd_spares (c : ChanId) (length : Nat) (w : Work) : Spares c w.burst (w.passEnd c length).burst := by
  rw [w.passEnd_eq]
  exact (w.dropPass_spares c).trans
    (Work.afterPass_spares c _ { w.dropPass c with ch := (w.dropPass c).ch.passCounted })

theorem Work.beginTick_burst (w : Work) : w.beginTick.1.burst = w.burst := by
  unfold Work.beginTick
  cases w.ch.state with
  | idle | arming | halted => rfl
  | armed =>
    dsimp only
    split
    · exact Work.enterEntry_burst _ _ _
    · rfl
  | running | stopping => exact w.startOfTick_sight.2
  | waiting =>
    dsimp only
    split_ifs
    · exact w.startOfTick_sight.2
    · exact (Work.startEntry_sight _).2.trans w.startOfTick_sight.2
    · exact (Work.startEntry_sight _).2.trans w.startOfTick_sight.2
    · exact w.startOfTick_sight.2

theorem Work.tickWord_burst (segs : Vector SegRec 256) (partner : Int) (w : Work) :
    (w.tickWord segs partner).1.burst = w.burst := by
  have hbegin := w.beginTick_burst
  unfold Work.tickWord
  generalize w.beginTick = r at hbegin ⊢
  obtain ⟨w1, phase⟩ := r
  cases phase with
  | idleWord | parkWord | stopNow | hold => exact hbegin
  | play =>
    dsimp only
    split
    · exact (Work.compute_sight _ _ _ _).2.trans hbegin
    · exact (Work.stall_sight _).2.trans hbegin

theorem Work.tickEnd_spares (segs : Vector SegRec 256) (c : ChanId) (r : Rest) (w : Work) :
    Spares c w.burst (w.tickEnd segs c r).burst := by
  cases r with
  | nothing => exact .refl c _
  | stop => exact w.enterIdle_spares c
  | starve => exact w.halt_spares c _
  | moved =>
    unfold Work.tickEnd
    dsimp only
    split
    · exact w.passEnd_spares c _
    · exact .refl c _

theorem Work.loseClock_spares (c : ChanId) (w : Work) : Spares c w.burst (w.loseClock c).burst := by
  unfold Work.loseClock
  split
  case h_1 | h_2 | h_3 => exact w.halt_spares c _
  all_goals exact .refl c _

theorem Work.flushFor_spares (c : ChanId) (mode : StopPoint) (w : Work) :
    Spares c w.burst (w.flushFor c mode).burst := by
  unfold Work.flushFor
  split
  · exact dropBurst_spares c _
  · exact .refl c _

theorem Work.stopCommand_spares (c : ChanId) (mode : StopPoint) (w : Work) :
    Spares c w.burst (w.stopCommand c mode).burst := by
  unfold Work.stopCommand
  split
  case h_1 | h_2 => exact .refl c _
  case h_3 | h_4 | h_7 => exact dropBurst_spares c _
  case h_5 => exact Work.flushFor_spares c mode _
  case h_6 =>
    refine .trans (.of_eq ?_) (Work.flushFor_spares c mode _)
    split <;> rfl

theorem Work.jumpCommand_spares (c : ChanId) (j : EntryIx) (w : Work) :
    Spares c w.burst (w.jumpCommand c j).burst := by
  unfold Work.jumpCommand
  split
  · exact dropBurst_spares c _
  · unfold Work.jumpRedirect
    split
    · exact dropBurst_spares c _
    · split <;> exact .refl c _

theorem ChanDeed.spares {s : State} {w : Work} (h : ChanDeed s c w) : Spares c s.burst w.burst := by
  cases h with
  | trigger deaf src => exact .of_eq (Work.triggerEvent_frame deaf src (s.work c)).1
  | stop mode => exact Work.stopCommand_spares c mode (s.work c)
  | jump target j => exact Work.jumpCommand_spares c j (s.work c)
  | arm | disarm => exact dropBurst_spares c _
  | static | live | join | start | clearFault | unit | armed => exact .refl c _

end

end Sys2Proof.Machine
end

section
/-! ### Commands and trigger events keep their channel in order (R61, R72, R74, R110 to R113) -/

namespace Sys2Proof.Machine

section
variable {segs : Vector SegRec 256} {own : Option Burst} {length : EntryIx → Nat} {k x : Chan} {c : ChanId} {w : Work}

/-! ### STOP -/

/-- A channel in play flushed by an IMMEDIATE stop (R72, R113). -/
theorem Work.flush_inOrder (hplay : w.ch.state.playing = true) (hnow : w.ch.stop = some .immediate)
    (hs : w.ch.Settled) (hhere : w.ch.hasPass w.ch.entry w.ch.pass) : (w.flush c).InOrder segs c :=
  ⟨⟨hs.jump, hs.now, hs.waits⟩, fun _ =>
    Chan.fetches_flushed rfl rfl rfl hnow (dropBurst_discarded c w.burst) hhere hplay⟩

theorem StopPoint.not_stronger {mode : StopPoint} {o : Option StopPoint} (h : ¬ mode.stronger o = true)
    (hmode : mode = .immediate) : o = some .immediate := by
  subst hmode
  cases o with
  | none => exact absurd rfl h
  | some q =>
    cases q with
    | immediate => rfl
    | atPass | atListEnd => exact absurd rfl h

theorem StopPoint.stronger_not_now {mode : StopPoint} {o : Option StopPoint} (h : mode.stronger o = true) :
    o ≠ some .immediate := by
  rintro rfl
  cases mode <;> cases h

/-- STOP in RUNNING or STOPPING, where it changes the stop point (R72). -/
theorem Work.stopped_inOrder {mode : StopPoint} (h : w.InOrder segs c)
    (hgoing : w.ch.state = .running ∨ w.ch.state = .stopping) (hlater : w.ch.stop ≠ some .immediate) :
    (({ w with ch := { w.ch with stop := some mode, state := .stopping } } : Work).flushFor c mode).InOrder segs c := by
  have hactive : w.ch.state.active = true :=
    ChanState.active_of_playing ((ChanState.playing_iff _).2 (hgoing.imp_right .inr))
  have hsettled : ({ w.ch with stop := some mode, state := .stopping } : Chan).Settled :=
    ⟨fun _ => .inr rfl, fun _ => .inl rfl, nofun⟩
  unfold Work.flushFor
  split
  · rename_i hmode
    exact Work.flush_inOrder rfl (congrArg some hmode) hsettled (h.fetches hactive).here
  · rename_i hmode
    exact ⟨hsettled, fun _ => h.fetches_congr hactive rfl rfl (.of_later hlater hmode) nofun⟩

theorem Work.stopCommand_inOrder (h : w.InOrder segs c) (mode : StopPoint) : (w.stopCommand c mode).InOrder segs c := by
  unfold Work.stopCommand
  cases hs : w.ch.state with
  | idle | halted => exact h
  | arming | armed =>
    obtain ⟨hjump, hnow⟩ := h.settled.at_rest (congrArg _ hs)
    exact .inactive rfl hjump hnow
  | running => exact Work.stopped_inOrder h (.inl hs) (h.settled.not_now (by rw [hs]; nofun) (by rw [hs]; nofun))
  | stopping =>
    dsimp only
    split
    · rename_i hstronger
      have hstopped := Work.stopped_inOrder (mode := mode) h (.inr hs) (StopPoint.stronger_not_now hstronger)
      rwa [← hs] at hstopped
    · rename_i hweaker
      unfold Work.flushFor
      split
      · rename_i hmode
        exact Work.flush_inOrder (congrArg _ hs) (StopPoint.not_stronger hweaker hmode) h.settled
          (h.fetches (congrArg _ hs)).here
      · exact h
  | waiting =>
    refine Work.flush_inOrder (w := { w with ch := { w.ch with stop := some .immediate } }) (congrArg _ hs) rfl
      ⟨h.settled.jump, fun _ => .inr hs, h.settled.waits⟩ (h.fetches (congrArg _ hs)).here

/-! ### JUMP -/

/-- A JUMP whose target is left pending: the last place of the pass in play is still to be read (R110). -/
theorem Chan.Fetches.retargeted (h : k.Fetches length own) (hl : ∀ z ∈ k.fetched own, z.Inner length)
    (hnow : k.stop ≠ some .immediate) (hplay : k.state.playing = true) (j : EntryIx) :
    ({ k with jump := some j, target := some j } : Chan).Fetches length own := by
  obtain ⟨cur, hcur⟩ := h.cursor_of_inner hnow hl
  have hahead : k.ahead own = k.fetched own ++ [cur] := by
    unfold Chan.ahead
    rw [hcur]
    rfl
  have horder : k.PlayOrder length (some j) (k.ahead own) := by
    rw [hahead, playOrder_rejump (jump' := k.jump) hl, ← hahead]
    exact h.order
  refine ⟨⟨?_, h.within, h.marks, h.burst⟩, h.first, h.here, fun e => absurd hplay (ne_true_of_eq_false e), ?_,
    fun e => absurd e hnow, fun _ i hi => .inl hi, fun _ e => ?_⟩
  · exact (playOrder_congr (k := k) (x := { k with jump := some j, target := some j }) rfl rfl _).2 horder
  · exact fun i hi => ⟨hi, hl⟩
  · cases hcur.symm.trans e

theorem Work.jumpRedirect_fetches (h : w.ch.Fetches length (ownBurst c w.burst)) (hnow : w.ch.stop ≠ some .immediate)
    (hplay : w.ch.state.playing = true) {j : EntryIx} (hj : w.ch.OnWalk length ⟨j, 0#16, 0⟩) :
    (({ w with ch := { w.ch with jump := some j } } : Work).jumpRedirect c j).ch.Fetches length
      (ownBurst c (({ w with ch := { w.ch with jump := some j } } : Work).jumpRedirect c j).burst) := by
  have hcases := h.passRun_cases
  have hdropped := dropBurst_discarded c w.burst
  unfold Work.jumpRedirect
  dsimp only
  cases hrun : afterPassRun w.ch.fifo with
  | some rest =>
    rw [hrun] at hcases
    obtain ⟨run, it, hfifo, hpassRun, hinner, hend⟩ := hcases
    refine h.redirected (l := run.map Item.place) (p := it.place)
      (r := rest.map Item.place ++ broughtBy (ownBurst c w.burst)) ?_ hinner hend rfl rfl rfl rfl hnow hplay rfl rfl rfl
      hj ?_ (fun a ha => ?_) hdropped.sized
    · unfold Chan.fetched
      rw [hfifo, List.map_append, List.map_cons, List.append_assoc, List.cons_append]
    · unfold Chan.fetched
      dsimp only
      rw [hpassRun, broughtBy_discarded hdropped, List.append_nil, List.map_append]
      rfl
    · rw [hfifo]
      have ha : a ∈ run ++ [it] := hpassRun ▸ ha
      rcases List.mem_append.1 ha with ha | ha
      · exact List.mem_append_left _ ha
      · exact List.mem_append_right _ (List.mem_singleton.1 ha ▸ List.mem_cons_self)
  | none =>
    rw [hrun] at hcases
    dsimp only at hcases ⊢
    rw [show carriesLast c { w with ch := { w.ch with jump := some j } } = carriesLast c w from rfl]
    split
    · rename_i hcarries
      rw [if_pos hcarries] at hcases
      obtain ⟨l, p, hp, hinner, hend⟩ := hcases
      exact h.redirected (r := []) hp hinner hend rfl rfl rfl rfl hnow hplay rfl rfl rfl hj hp (fun _ => id) h.burst
    · rename_i hcarries
      rw [if_neg hcarries] at hcases
      exact h.retargeted hcases hnow hplay j

theorem Work.jumpWaiting_inOrder (h : w.InOrder segs c) (hlist : w.ch.OnList segs) (hs : w.ch.state = .waiting)
    (hnow : w.ch.stop ≠ some .immediate) {j : EntryIx} (hj : j.val < w.ch.list.length) :
    (w.jumpWaiting c j).InOrder segs c := by
  have hjump : w.ch.jump = none := h.settled.jump_none (by rw [hs]; nofun) (by rw [hs]; nofun)
  have hfresh : ∀ v : Work, v.ch.list = w.ch.list → v.ch.state = w.ch.state → v.ch.stop = w.ch.stop →
      v.ch.jump = w.ch.jump → v.ch.entry = j → v.ch.pass = 0#16 → (v.refetchFrom c j).InOrder segs c := by
    intro v hvlist hvstate hvstop hvjump hventry hvpass
    have hvjump : v.ch.jump = none := hvjump.trans hjump
    have hvnow : v.ch.stop ≠ some .immediate := hvstop ▸ hnow
    refine ⟨⟨fun e => ?_, fun e => absurd e hvnow, fun _ => hvpass⟩, fun _ => ?_⟩
    · rw [show (v.refetchFrom c j).ch.jump = none from hvjump] at e
      cases e
    · refine Chan.fetches_afresh rfl (congrArg (fun i => some (Cursor.mk i 0#16 0)) hventry.symm) rfl hvjump hvpass
        hvnow (dropBurst_discarded c v.burst) (hvlist.symm ▸ hventry.symm ▸ hj) ?_ fun e => ?_
      · rw [show (v.refetchFrom c j).ch.entry = j from hventry,
          lengthOf_congr (k := w.ch) (x := (v.refetchFrom c j).ch) (fun _ => rfl) hvlist]
        exact hlist.length_pos hj
      · rw [show (v.refetchFrom c j).ch.state = .waiting from hvstate.trans hs] at e
        cases e
  unfold Work.jumpWaiting
  dsimp only
  split_ifs <;> exact hfresh _ rfl rfl rfl rfl rfl rfl

theorem Chan.jumpCheck_later {target : Byte} {j : EntryIx} (h : k.jumpCheck target = .ok j) :
    k.stop ≠ some .immediate := by
  intro hnow
  unfold Chan.jumpCheck at h
  rw [if_pos (.inr hnow : k.stop = some .atPass ∨ k.stop = some .immediate)] at h
  split at h <;> cases h

theorem Work.jumpCommand_inOrder (h : w.InOrder segs c) (hlist : w.ch.OnList segs) (hplay : w.ch.state.playing = true)
    (hnow : w.ch.stop ≠ some .immediate) {j : EntryIx} (hj : j.val < w.ch.list.length) :
    (w.jumpCommand c j).InOrder segs c := by
  unfold Work.jumpCommand
  split
  · exact Work.jumpWaiting_inOrder h hlist ‹_› hnow hj
  · rename_i hwait
    have hgoing : w.ch.state = .running ∨ w.ch.state = .stopping := by
      rcases (ChanState.playing_iff _).1 hplay with e | e | e
      · exact .inl e
      · exact absurd e hwait
      · exact .inr e
    have hframe := Work.jumpRedirect_frame c j { w with ch := { w.ch with jump := some j } }
    have hfetches := Work.jumpRedirect_fetches (h.fetches (ChanState.active_of_playing hplay)) hnow hplay
      (hlist.onWalk_start hj)
    refine (Chan.Going.of_fetches (hfetches.on_list (congrArg Chan.list hframe :)) ?_ ?_).toInOrder
    · rw [show _ = w.ch.state from (congrArg Chan.state hframe :)]
      exact hgoing
    · rw [show _ = w.ch.stop from (congrArg Chan.stop hframe :)]
      exact hnow

/-! ### Every event of one channel -/

/-- ARM, its checks passed: the Fetcher begins at the start of the list (R61). -/
theorem Work.arm_inOrder (hs : w.ch.Settled) (hidle : w.ch.state = .idle) (hlist : (w.arm c).ch.OnList segs) :
    (w.arm c).InOrder segs c := by
  obtain ⟨hjump, hnow⟩ := hs.at_rest (congrArg _ hidle)
  refine ⟨⟨fun e => ?_, fun e => absurd e hnow, nofun⟩, fun _ => ?_⟩
  · rw [show (w.arm c).ch.jump = none from hjump] at e
    cases e
  · exact Chan.fetches_afresh rfl rfl rfl hjump rfl hnow (dropBurst_discarded c w.burst) hlist.entry
      (hlist.length_pos hlist.entry) fun _ => rfl

/-- An event of one channel keeps it in order, where the walk law stands before and after. -/
theorem ChanDeed.inOrder {s : State} (h : ChanDeed s c w) (hs : (s.work c).InOrder segs c)
    (hlist : w.ch.state.active = true → w.ch.OnList segs)
    (hstood : (s.chan c).state.active = true → (s.chan c).OnList segs) : w.InOrder segs c := by
  cases h with
  | trigger deaf src =>
    obtain ⟨hburst, hframe⟩ := Work.triggerEvent_frame deaf src (s.work c)
    unfold Work.InOrder
    rw [hburst]
    exact Chan.InOrder.congr hs (congrArg Chan.sight hframe :)
  | arm p hidle hcheck => exact Work.arm_inOrder hs.settled hidle (hlist rfl)
  | disarm hstate =>
    obtain ⟨hjump, hnow⟩ := hs.settled.at_rest (hstate.elim (congrArg _) (congrArg _))
    exact .inactive rfl hjump hnow
  | stop mode => exact Work.stopCommand_inOrder hs mode
  | jump target j hcheck =>
    have hplay := Chan.jumpCheck_playing hcheck
    exact Work.jumpCommand_inOrder hs (hstood (ChanState.active_of_playing hplay)) hplay (Chan.jumpCheck_later hcheck)
      (Chan.jumpCheck_lt hcheck)
  | static st hstate =>
    obtain ⟨hjump, hnow⟩ := hs.settled.at_rest (ChanState.playing_of_inactive hstate)
    have hwritten : ((s.chan c).writeStatic st).state = (s.chan c).state
        ∧ ((s.chan c).writeStatic st).jump = (s.chan c).jump
        ∧ ((s.chan c).writeStatic st).stop = (s.chan c).stop := by
      unfold Chan.writeStatic
      split_ifs <;> exact ⟨rfl, rfl, rfl⟩
    obtain ⟨hws, hwj, hwn⟩ := hwritten
    exact .inactive ((congrArg ChanState.active hws).trans hstate) (hwj.trans hjump) (hwn ▸ hnow)
  | live given pt =>
    unfold Chan.setLive
    split <;> exact Chan.InOrder.congr hs rfl
  | join =>
    unfold Chan.joinGroup
    split
    · exact Chan.InOrder.congr hs rfl
    · exact hs
  | start =>
    unfold Chan.startCommand
    split
    · exact Chan.InOrder.congr hs rfl
    · exact hs
  | clearFault hhalted =>
    obtain ⟨hjump, hnow⟩ := hs.settled.at_rest (congrArg _ hhalted)
    exact .inactive rfl hjump hnow
  | unit u m => cases u <;> exact Chan.InOrder.congr hs rfl
  | armed hstate =>
    obtain ⟨hjump, hnow⟩ := hs.settled.at_rest (congrArg _ hstate)
    refine ⟨⟨fun e => ?_, fun e => absurd e hnow, nofun⟩, fun _ => ?_⟩
    · rw [show (s.chan c).jump = none from hjump] at e
      cases e
    · exact Chan.InOrder.fetches_congr hs (congrArg _ hstate) rfl rfl (.of_eq rfl) fun _ => congrArg _ hstate

/-- The loss of the clock: a channel in play is halted, another goes on as it was (R80). -/
theorem Work.loseClock_inOrder (h : w.InOrder segs c) : (w.loseClock c).InOrder segs c := by
  unfold Work.loseClock
  split
  case h_1 | h_2 | h_3 => exact Work.halt_inOrder w _
  case h_4 | h_5 | h_6 => exact Chan.InOrder.congr h rfl
  case h_7 => exact h

end

end Sys2Proof.Machine
end

section
/-! ### The part in order, through the events of one channel -/

namespace Sys2Proof.Machine

/-- Every channel in order, with what the walk rests on. It reads only the channels, the segments and the burst in
flight, so an event that changes none of them keeps it as it stands. -/
def PartInOrder (chans : Vector Chan 8) (segs : Vector SegRec 256) (burst : Option Burst) : Prop :=
  ∀ c, ((chans.get c).Walk segs ∧ (chans.get c).Long segs ∧ (chans.get c).StepsBounded)
    ∧ (chans.get c).InOrder segs (ownBurst c burst)

/-- Every channel of the part is in order. -/
def State.InOrder (s : State) : Prop := PartInOrder s.chans s.segs s.burst

section
variable {s t : State} {c : ChanId} {w : Work}

theorem State.inOrder_iff : s.InOrder ↔ s.Walks ∧ ∀ c, (s.work c).InOrder s.segs c :=
  ⟨fun h => ⟨⟨fun c => (h c).1.1, fun c => (h c).1.2.1, fun c => (h c).1.2.2⟩, fun c => (h c).2⟩,
    fun ⟨hw, h⟩ c => ⟨⟨hw.walk c, hw.long c, hw.steps c⟩, h c⟩⟩

theorem State.InOrder.walks (h : s.InOrder) : s.Walks := (State.inOrder_iff.1 h).1

theorem State.InOrder.work (h : s.InOrder) (c : ChanId) : (s.work c).InOrder s.segs c := (State.inOrder_iff.1 h).2 c

/-- An event of one channel that keeps that channel in order, and drops no other channel's burst. -/
theorem State.InOrder.of_work (h : s.InOrder) (hwalks : t.Walks) (hw : w.InOrder s.segs c)
    (hspares : Spares c s.burst w.burst) (hchan : ∀ d, t.chan d = if d = c then w.ch else s.chan d)
    (hburst : t.burst = w.burst) (hsegs : t.segs = s.segs) : t.InOrder := by
  refine State.inOrder_iff.2 ⟨hwalks, fun d => ?_⟩
  change (t.chan d).InOrder t.segs (ownBurst d t.burst)
  rw [hchan, hburst, hsegs]
  by_cases hd : d = c
  · rw [if_pos hd, hd]
    exact hw
  · rw [if_neg hd, hspares d hd]
    exact h.work d

theorem State.InOrder.putWork (h : s.InOrder) (hwalk : w.ch.Walk s.segs) (hlist : w.ch.list = (s.chan c).list)
    (hsteps : w.ch.StepsBounded) (hw : w.InOrder s.segs c) (hspares : Spares c s.burst w.burst) :
    (s.putWork c w).InOrder := by
  obtain ⟨hchan, hburst, -, hrest⟩ := s.putWork_spec c w
  exact h.of_work (h.walks.putWork hwalk hlist hsteps) hw hspares hchan hburst (congrArg State.segs hrest :)

theorem ChanDeed.put_inOrder (hdeed : ChanDeed s c w) (h : s.InOrder) : (s.putWork c w).InOrder := by
  have hwork := h.work c
  have hwalk : w.ch.Walk s.segs := hdeed.walk (h.walks.walk c) (h.walks.long c) fun hidle =>
    (hwork.settled.at_rest (congrArg _ hidle)).1
  exact h.putWork hwalk hdeed.list (hdeed.steps (h.walks.steps c))
    (hdeed.inOrder hwork (fun ha => (hwalk ha).1) fun ha => (h.walks.walk c ha).1) hdeed.spares

/-- A channel replaced, with no cause raised. -/
theorem ChanDeed.set_inOrder {k : Chan} (hdeed : ChanDeed s c { s.work c with ch := k }) (h : s.InOrder) :
    (s.setChan c k).InOrder := hdeed.put_inOrder h

theorem foldl_inOrder {α : Type} {f : State → α → State} (hf : ∀ s x, s.InOrder → (f s x).InOrder) (l : List α)
    (h : s.InOrder) : (l.foldl f s).InOrder := by
  induction l generalizing s with
  | nil => exact h
  | cons x r ih => exact ih (hf s x h)

theorem State.InOrder.ticked (h : s.InOrder) (c : ChanId) : (s.ticked c).InOrder := by
  obtain ⟨hchan, hburst, -, -, -, hrest⟩ := s.ticked_spec c
  have hworded : (s.tickWordOf c).WordedInOrder s.segs c (s.tickRestOf c) :=
    Work.tickWord_inOrder (h.work c) (h.walks.walk c) _
  have hwalked : (s.tickWordOf c).WalkedTo s.segs (s.tickRestOf c) :=
    Work.tickWord_walk (w := s.work c) (h.walks.walk c) (h.walks.steps c) _
  have hquiet : ({ s.tickWordOf c with raised := [] } : Work).WordedInOrder s.segs c (s.tickRestOf c)
      ∧ ({ s.tickWordOf c with raised := [] } : Work).WalkedTo s.segs (s.tickRestOf c) := by
    revert hworded hwalked
    cases s.tickRestOf c <;> exact fun hworded hwalked => ⟨hworded, hwalked⟩
  have hspares : Spares c s.burst (s.tickEndOf c).burst :=
    (Spares.of_eq (Work.tickWord_burst s.segs _ (s.work c))).trans (Work.tickEnd_spares s.segs c (s.tickRestOf c) _)
  exact h.of_work (h.walks.ticked c) (Work.tickEnd_inOrder hquiet.1 hquiet.2) hspares hchan hburst
    (congrArg State.segs hrest :)

theorem State.InOrder.loseAll (h : s.InOrder) : s.loseAll.InOrder := by
  refine foldl_inOrder (fun t c ht => ?_) _ h
  exact ht.putWork (Work.loseClock_walk (ht.walks.walk c)) (Work.loseClock_steady c (t.work c)).list
    ((Work.loseClock_records c (t.work c)).steps (ht.walks.steps c)) (Work.loseClock_inOrder (ht.work c))
    (Work.loseClock_spares c (t.work c))

end

end Sys2Proof.Machine
end

section
/-! ### Grants and bursts keep the play order (R103, R104, R105, R115) -/

namespace Sys2Proof.Machine

section
variable {segs segs' : Vector SegRec 256} {length : EntryIx → Nat} {own own' : Option Burst} {k x : Chan}

/-! ### A grant to the Fetcher -/

/-- A burst granted at the cursor, which has moved past it (R103, R104). -/
theorem Chan.Fetches.extended {cur : Cursor} {n : Nat} (h : k.Fetches length own) (hcur : k.cursor = some cur)
    (hx : { x with cursor := k.cursor, target := k.target } = k)
    (hfetched : x.fetched own' = k.fetched own ++ cur.run (n + 1)) (hrun : cur.index + n < length cur.entry)
    (hburst : Sized length own') (hnext : k.PlayOrder length k.target (cur.run (n + 1) ++ x.cursor.toList))
    (hon : ∀ y, x.cursor = some y → k.OnWalk length y)
    (htarget : ∀ j, x.target = some j → k.target = some j ∧ (cur.skip n).Inner length)
    (hstored : ∀ j, k.target = some j → x.target = some j ∨ (¬ (cur.skip n).Inner length ∧ x.cursor ≠ none))
    (hended : x.cursor = none → ¬ (cur.skip n).Inner length ∧ k.WalkEnds cur) : x.Fetches length own' := by
  have hlist : x.list = k.list := (congrArg Chan.list hx :)
  have hmode : x.stat.endMode = k.stat.endMode := (congrArg (fun c : Chan => c.stat.endMode) hx :)
  have hfifo : x.fifo = k.fifo := (congrArg Chan.fifo hx :)
  have hentry : x.entry = k.entry := (congrArg Chan.entry hx :)
  have hpass : x.pass = k.pass := (congrArg Chan.pass hx :)
  have hjump : x.jump = k.jump := (congrArg Chan.jump hx :)
  have hstop : x.stop = k.stop := (congrArg Chan.stop hx :)
  have hstate : x.state = k.state := (congrArg Chan.state hx :)
  have hkahead : k.ahead own = k.fetched own ++ cur :: [] := by
    unfold Chan.ahead
    rw [hcur]
    rfl
  have hnow : k.stop ≠ some .immediate := fun e => by
    obtain ⟨hnil, -⟩ := h.flushed e
    rw [hkahead] at hnil
    exact List.append_ne_nil_of_right_ne_nil _ (List.cons_ne_nil _ _) hnil
  have hahead : x.ahead own' = k.fetched own ++ (cur.run (n + 1) ++ x.cursor.toList) := by
    unfold Chan.ahead
    rw [hfetched, List.append_assoc]
  obtain ⟨rest, hrest⟩ : ∃ rest, cur.run (n + 1) ++ x.cursor.toList = cur :: rest :=
    ⟨(cur.skip 1).run n ++ x.cursor.toList, by rw [Cursor.run_cons, List.cons_append]⟩
  have hlast : cur.skip n ∈ cur.run (n + 1) := Cursor.mem_run.2 ⟨n, n.lt_succ_self, rfl⟩
  have hcurOn : k.OnWalk length cur := h.within cur (hkahead ▸ List.mem_append_right _ List.mem_cons_self)
  refine ⟨⟨?_, fun z hz => ?_, ?_, hburst⟩, fun z hz => ?_, ?_, ?_, fun j hj => ?_, fun e => absurd (hstop ▸ e) hnow,
    fun _ j hj => ?_, fun _ hn => ?_⟩
  · rw [hjump, playOrder_congr hlist hmode, hahead, hrest, playOrder_append, h.jumpPast_fetched hnow hcur, ← hrest]
    exact ⟨hkahead ▸ h.order, hnext⟩
  · suffices hz : k.OnWalk length z from ⟨(hasPass_congr hlist _ _).2 hz.1, hz.2⟩
    rw [hahead, List.mem_append, List.mem_append] at hz
    rcases hz with hz | hz | hz
    · exact h.within z (hkahead ▸ List.mem_append_left _ hz)
    · obtain ⟨i, hi, rfl⟩ := Cursor.mem_run.1 hz
      exact ⟨hcurOn.1, by change cur.index + i < length cur.entry; omega⟩
    · exact hon z (Option.mem_toList.1 hz)
  · rw [hfifo]
    exact h.marks
  · rw [hentry, hpass]
    refine h.first z ?_
    rw [hkahead]
    rw [hahead, hrest] at hz
    revert hz
    cases k.fetched own <;> exact id
  · rw [hentry, hpass, hasPass_congr hlist]
    exact h.here
  · rw [hentry, hpass, hstate]
    exact h.start
  · obtain ⟨hkj, hinner⟩ := htarget j hj
    obtain ⟨hkjump, hall⟩ := h.target j hkj
    refine ⟨hjump.trans hkjump, fun z hz => ?_⟩
    rw [hfetched] at hz
    rcases List.mem_append.1 hz with hz | hz
    · exact hall z hz
    · exact Cursor.run_inner (n := n + 1) hinner z hz
  · have hin : ∀ z ∈ k.fetched own, z ∈ (x.ahead own').dropLast := fun z hz => by
      rw [hahead, hrest, List.dropLast_append_of_ne_nil (List.cons_ne_nil _ _)]
      exact List.mem_append_left _ hz
    rcases h.stored hnow j (hjump ▸ hj) with hkj | ⟨z, hz, hend⟩
    · refine (hstored j hkj).imp_right ?_
      rintro ⟨hend, hsome⟩
      obtain ⟨y, hy⟩ := Option.ne_none_iff_exists'.1 hsome
      refine ⟨cur.skip n, ?_, hend⟩
      unfold Chan.ahead
      rw [hfetched, hy, Option.toList_some, List.dropLast_concat]
      exact List.mem_append_right _ hlast
    · rw [hkahead, List.dropLast_concat] at hz
      exact .inr ⟨z, hin z hz, hend⟩
  · obtain ⟨hend, hends⟩ := hended hn
    refine ⟨cur.skip n, ?_, hend, hends.congr hlist hmode ⟨rfl, rfl⟩ (hstop ▸ id)⟩
    rw [hfetched, Cursor.run_succ, ← List.append_assoc, List.getLast?_concat]

/-- The cursor moved past a burst of one or more places (R103). -/
theorem Chan.Fetches.moved {cur : Cursor} {n : Nat} (h : k.Fetches (lengthOf segs k) own) (hlist : k.OnList segs)
    (hcur : k.cursor = some cur) (hrun : cur.index + n < lengthOf segs k cur.entry)
    (hfetched : (k.moveCursor cur (n + 1) (lengthOf segs k cur.entry)).fetched own' = k.fetched own ++ cur.run (n + 1))
    (hburst : Sized (lengthOf segs k) own') :
    (k.moveCursor cur (n + 1) (lengthOf segs k cur.entry)).Fetches (lengthOf segs k) own' := by
  have hmem : cur ∈ k.ahead own := by
    unfold Chan.ahead
    rw [hcur]
    exact List.mem_append_right _ List.mem_cons_self
  obtain ⟨hcurOn, -⟩ := h.within cur hmem
  have hframe := k.moveCursor_frame cur (n + 1) (lengthOf segs k cur.entry)
  unfold Chan.moveCursor at hfetched hframe ⊢
  split
  · rename_i hlt
    rw [if_pos hlt] at hfetched
    refine h.extended hcur rfl hfetched hrun hburst (playOrder_run hlt) (fun y hy => ?_) (fun j hj => ⟨hj, hlt⟩)
      (fun j hj => .inl hj) nofun
    obtain rfl := Option.some.inj hy
    exact ⟨hcurOn, hlt⟩
  · rename_i hge
    rw [if_neg hge] at hfetched hframe
    obtain ⟨htarget, henters, hends⟩ := cursorPastPass_spec cur hcurOn
    generalize k.cursorPastPass cur = x at hfetched hframe htarget henters hends ⊢
    have hpending : ∀ j, k.target = some j → j.val < k.list.length := fun j hj => hlist.jump j (h.target j hj).1
    refine h.extended hcur hframe hfetched hrun hburst ?_ (fun y hy => (henters y hy).onWalk hlist hcurOn hpending)
      (fun j hj => ?_) (fun j hj => .inr ⟨hge, fun hnone => ?_⟩) fun hnone => ⟨hge, (hends hnone).2⟩
    · rw [Cursor.run_succ]
      cases hy : x.cursor with
      | none =>
        rw [Option.toList_none, List.append_nil]
        exact playOrder_run hrun
      | some y =>
        rw [Option.toList_some, List.append_assoc, List.singleton_append, playOrder_append,
          jumpPast_of_inner (Cursor.run_inner hrun), playOrder_end hge]
        exact ⟨playOrder_run hrun, (henters y hy).of_pass rfl rfl, playOrder_singleton⟩
    · rw [htarget] at hj
      cases hj
    · rw [(hends hnone).1] at hj
      cases hj

/-! ### The items of a burst taken -/

/-- The items of a burst in flight at the tail of the FIFO in its place (R105). -/
theorem Chan.Fetches.taken (h : k.Fetches length own) (hx : { x with fifo := k.fifo } = k)
    (hfetched : x.fetched own' = k.fetched own)
    (hmarks : ∀ it ∈ x.fifo, it ∈ k.fifo ∨ it.last = decide (it.index + 1 = length it.entry))
    (hburst : Sized length own') : x.Fetches length own' := by
  have hlist : x.list = k.list := (congrArg Chan.list hx :)
  have hmode : x.stat.endMode = k.stat.endMode := (congrArg (fun c : Chan => c.stat.endMode) hx :)
  have hcur : x.cursor = k.cursor := (congrArg Chan.cursor hx :)
  have hcourse : x.course = k.course := (congrArg Chan.course hx :)
  have hstop : x.stop = k.stop := (congrArg Chan.stop hx :)
  have hstate : x.state = k.state := (congrArg Chan.state hx :)
  obtain ⟨hentry, hpass, hjump, htarget⟩ := course_eq hcourse
  have hahead : x.ahead own' = k.ahead own := by
    unfold Chan.ahead
    rw [hfetched, hcur]
  refine ⟨⟨?_, fun z hz => ?_, fun it hit => (hmarks it hit).elim (h.marks it) id, hburst⟩, ?_, ?_, ?_, ?_, ?_, ?_,
    fun hnow hn => ?_⟩
  · rw [hjump, playOrder_congr hlist hmode, hahead]
    exact h.order
  · obtain ⟨hz, hzlt⟩ := h.within z (hahead ▸ hz)
    exact ⟨(hasPass_congr hlist _ _).2 hz, hzlt⟩
  · rw [hahead, hentry, hpass]
    exact h.first
  · rw [hentry, hpass, hasPass_congr hlist]
    exact h.here
  · rw [hentry, hpass, hstate]
    exact h.start
  · rw [htarget, hjump, hfetched]
    exact h.target
  · rw [hstop, hahead, htarget]
    exact h.flushed
  · rw [hstop, hjump, htarget, hahead]
    exact h.stored
  · obtain ⟨p, hp, hend, hends⟩ := h.ended (hstop ▸ hnow) (hcur ▸ hn)
    exact ⟨p, hfetched ▸ hp, hend, hends.congr hlist hmode ⟨rfl, rfl⟩ (hstop ▸ id)⟩

/-- The items of a burst are of the places it was to bring (R105). -/
theorem fetchedItems_places (g : FetchTag) (q : Nat) (prev : Sample) (slots : List Slot) :
    (fetchedItems g q prev slots).map Item.place = Cursor.run ⟨g.entry, g.pass, q⟩ slots.length := by
  induction slots generalizing q prev with
  | nil => rfl
  | cons x r ih =>
    rw [fetchedItems_cons, List.map_cons, ih, List.length_cons, Cursor.run_cons]
    rfl

/-- The marks of a burst's items (R105). -/
theorem fetchedItems_marks {g : FetchTag} {q : Nat} {prev : Sample} {slots : List Slot} :
    ∀ it ∈ fetchedItems g q prev slots, it.entry = g.entry ∧ it.last = decide (it.index + 1 = g.length) := by
  induction slots generalizing q prev with
  | nil => nofun
  | cons x r ih =>
    rw [fetchedItems_cons]
    exact List.forall_mem_cons.2 ⟨⟨rfl, rfl⟩, ih⟩

theorem fetchItems_places {s : State} (tail : Sample) (b : Burst) :
    (fetchItems tail b (s.readSlots b)).map Item.place = broughtBy (some b) := by
  unfold fetchItems broughtBy
  dsimp only
  cases b.keep with
  | false => rfl
  | true =>
    cases b.tag with
    | none => rfl
    | some g =>
      dsimp only
      rw [fetchedItems_places, readSlots_length]
      rfl

theorem fetchItems_marks {s : State} {tail : Sample} {b : Burst} (hb : Sized length (some b)) :
    ∀ it ∈ fetchItems tail b (s.readSlots b), it.last = decide (it.index + 1 = length it.entry) := by
  unfold fetchItems
  split
  · rename_i g hkeep htag
    intro it hit
    obtain ⟨hentry, hlast⟩ := fetchedItems_marks it hit
    rw [hlast, hentry, (hb b g rfl hkeep htag).2]
  · nofun

/-! ### Segments whose lengths stay -/

theorem Chan.InOrder.relabel (hs : ∀ i, (segs'.get i).length = (segs.get i).length) (h : k.InOrder segs own) :
    k.InOrder segs' own := by
  refine ⟨h.settled, fun ha => ?_⟩
  rw [show lengthOf segs' k = lengthOf segs k from funext (lengthOf_congr hs rfl)]
  exact h.fetches ha

end

end Sys2Proof.Machine
end

section
/-! ### The part in order, through grants and completed bursts (R104, R105, R115, R116) -/

namespace Sys2Proof.Machine

section
variable {segs : Vector SegRec 256} {s : State} {c : ChanId} {b : Burst} {k : Chan}

/-! ### The channel chosen -/

theorem State.pickFetch_asks {asks : ChanId → Bool} (h : s.pickFetch asks = some c) : asks c = true := by
  obtain ⟨level, -, hlevel⟩ := List.exists_of_findSome?_eq_some h
  unfold State.pickLevel at hlevel
  have hpicked := List.find?_some hlevel
  exact (Bool.and_eq_true_iff.1 hpicked).1

theorem State.urgent_requests (h : s.urgent c = true) : s.fetchRequest c = true := by
  unfold State.urgent at h
  rw [Bool.and_assoc] at h
  exact (Bool.and_eq_true_iff.1 h).1

/-- A channel granted a burst has asked for it (R116). -/
theorem State.chosen_requests (h : s.chosen = some (.fetcher c)) : s.fetchRequest c = true := by
  unfold State.chosen at h
  split at h
  · rename_i d hd
    obtain rfl : d = c := Requester.fetcher.inj (Option.some.inj h)
    exact State.urgent_requests (State.pickFetch_asks hd)
  · split at h
    · cases h
    · split at h
      · rename_i d hd
        obtain rfl : d = c := Requester.fetcher.inj (Option.some.inj h)
        exact State.pickFetch_asks hd
      · obtain ⟨p, -, hp⟩ := Option.map_eq_some_iff.1 h
        cases hp

/-- A channel that asks has room for an item (R104). -/
theorem State.fetchRequest_room (h : s.fetchRequest c = true) : (s.chan c).fifo.length < 64 := by
  unfold State.fetchRequest at h
  obtain ⟨-, hroom⟩ := Bool.and_eq_true_iff.1 h
  split at hroom <;> have := of_decide_eq_true hroom <;> omega

/-! ### Bursts of others -/

theorem ownBurst_of_ne {o : Option Burst} (h : ∀ b, o = some b → b.requester ≠ .fetcher c) : ownBurst c o = none := by
  by_contra hsome
  obtain ⟨b, hb⟩ := Option.ne_none_iff_exists'.1 hsome
  obtain ⟨hb, hreq⟩ := (ownBurst_eq c o b).1 hb
  exact h b hb hreq

theorem ownBurst_of_fetcher (hreq : b.requester = .fetcher c) : ownBurst c (some b) = some b :=
  (ownBurst_eq c _ b).2 ⟨rfl, hreq⟩

/-- A burst of one channel goes into flight or comes out. -/
theorem Spares.of_fetcher (hreq : b.requester = .fetcher c) :
    Spares c none (some b) ∧ Spares c (some b) none := by
  have hnone : ∀ d, d ≠ c → ownBurst d (some b) = none := fun d hd => ownBurst_of_ne fun x hx hr => by
    obtain rfl := Option.some.inj hx
    exact hd (Requester.fetcher.inj (hr.symm.trans hreq))
  exact ⟨hnone, fun d hd => (hnone d hd).symm⟩

/-! ### Grants -/

theorem lengthOf_of_entryAt {j : EntryIx} {e : Entry} (h : k.entryAt j = some e) :
    lengthOf segs k j = ((segs.get e.seg).length).getD 0 := by
  unfold lengthOf
  rw [h]

/-- The channel that is granted a burst, and the burst (R103, R104). -/
theorem Chan.InOrder.granted {cur : Cursor} {e : Entry} (h : k.InOrder segs none)
    (hlist : k.state.active = true → k.OnList segs) (hlong : k.Long segs) (hcur : k.cursor = some cur)
    (he : k.entryAt cur.entry = some e) (hroom : k.fifo.length < 64) :
    let b := fetchBurst c (segs.get e.seg) e cur k.fifo.length
    (k.moveCursor cur b.count (((segs.get e.seg).length).getD 0)).InOrder segs (some b) := by
  intro b
  have hframe := k.moveCursor_frame cur b.count (((segs.get e.seg).length).getD 0)
  have hsettled : (k.moveCursor cur b.count (((segs.get e.seg).length).getD 0)).Settled := by
    refine ⟨?_, ?_, ?_⟩
    · rw [show _ = k.jump from (congrArg Chan.jump hframe :), show _ = k.state from (congrArg Chan.state hframe :)]
      exact h.settled.jump
    · rw [show _ = k.stop from (congrArg Chan.stop hframe :), show _ = k.state from (congrArg Chan.state hframe :)]
      exact h.settled.now
    · rw [show _ = k.pass from (congrArg Chan.pass hframe :), show _ = k.state from (congrArg Chan.state hframe :)]
      exact h.settled.waits
  refine ⟨hsettled, fun ha => ?_⟩
  have hactive : k.state.active = true := (congrArg (fun x : Chan => x.state.active) hframe :) ▸ ha
  have hf := h.fetches hactive
  have hmem : cur ∈ k.ahead none := by
    unfold Chan.ahead
    rw [hcur]
    exact List.mem_append_right _ List.mem_cons_self
  have hindex := (hf.within cur hmem).2
  have hlength : lengthOf segs k cur.entry = ((segs.get e.seg).length).getD 0 := lengthOf_of_entryAt he
  obtain ⟨L, hL⟩ : ∃ L, (segs.get e.seg).length = some L := by
    cases hL : (segs.get e.seg).length with
    | some L => exact ⟨L, rfl⟩
    | none =>
      have hlow := hlong e (List.mem_of_getElem? he)
      rw [hL] at hlow
      exact absurd hlow (by decide)
  have hgetD : ((segs.get e.seg).length).getD 0 = L := by rw [hL]; rfl
  obtain ⟨-, -, hkeep, -, -, -, hone, -, hleft, -⟩ :=
    fetchBurst_rule c (segs.get e.seg) e cur hL (by omega) hroom
  obtain ⟨n, hn⟩ : ∃ n, b.count = n + 1 := ⟨b.count - 1, (Nat.succ_pred_eq_of_pos hone).symm⟩
  have hrun : cur.index + n < lengthOf segs k cur.entry := by
    have : b.count ≤ L - cur.index := hleft
    omega
  have hbrought : broughtBy (some b) = cur.run (n + 1) := (broughtBy_kept hkeep rfl).trans (by rw [hn]; rfl)
  have hsized : Sized (lengthOf segs k) (some b) := by
    intro b' g hb' _ htag
    obtain rfl := Option.some.inj hb'
    obtain rfl := Option.some.inj htag
    exact ⟨hone, hlength.symm⟩
  refine Chan.Fetches.on_list ?_ (congrArg Chan.list hframe :)
  rw [hn, ← hlength] at hframe ⊢
  refine hf.moved (hlist hactive) hcur hrun ?_ hsized
  unfold Chan.fetched
  rw [hbrought, show _ = k.fifo from (congrArg Chan.fifo hframe :), show broughtBy none = [] from rfl, List.append_nil]

theorem State.InOrder.grantFetch (h : s.InOrder) (hfree : s.burst = none) (hr : s.chosen = some (.fetcher c)) :
    s.arbitrate.InOrder := by
  have hwalks := h.walks.arbitrate
  have hroom := State.fetchRequest_room (State.chosen_requests hr)
  have hown : (s.work c).InOrder s.segs c := h.work c
  unfold Work.InOrder at hown
  rw [show (s.work c).burst = none from hfree] at hown
  rw [arbitrate_fetcher hfree hr] at hwalks ⊢
  unfold State.grantFetch at hwalks ⊢
  dsimp only at hwalks ⊢
  cases hcur : (s.chan c).cursor with
  | none => exact h
  | some cur =>
    rw [hcur] at hwalks
    dsimp only at hwalks ⊢
    cases he : (s.chan c).entryAt cur.entry with
    | none => exact h
    | some e =>
      rw [he] at hwalks
      dsimp only at hwalks ⊢
      have hgranted := Chan.InOrder.granted (c := c) hown (fun ha => (h.walks.walk c ha).1) (h.walks.long c) hcur he
        hroom
      generalize hb : fetchBurst c (s.seg e.seg) e cur (s.chan c).fifo.length = b at hwalks
      have hreq : b.requester = .fetcher c := hb ▸ rfl
      refine h.of_work (c := c)
        (w := ⟨(s.chan c).moveCursor cur b.count (((s.seg e.seg).length).getD 0), some b, []⟩) hwalks ?_ ?_
        (fun d => s.setChan_chan c d _) rfl rfl
      · unfold Work.InOrder
        rw [ownBurst_of_fetcher hreq, ← hb]
        exact hgranted
      · rw [hfree]
        exact (Spares.of_fetcher hreq).1

/-- A burst of a Load Unit goes into flight where there was none. -/
theorem State.InOrder.grantLoad (h : s.InOrder) (hfree : s.burst = none) (p : Port) : (s.grantLoad p).InOrder := by
  have hput : ∀ b : Burst, b.requester = .loadUnit p → ({ s with burst := some b } : State).InOrder := fun b hb d => by
    have hnone : ownBurst d (some b) = ownBurst d s.burst := by
      rw [hfree, ownBurst_of_ne fun x hx hr => by
        obtain rfl := Option.some.inj hx
        cases hb.symm.trans hr]
      rfl
    refine ⟨(h d).1, ?_⟩
    change ((s.chan d).InOrder s.segs (ownBurst d (some b)))
    rw [hnone]
    exact (h d).2
  unfold State.grantLoad
  dsimp only
  split
  · split
    · exact hput _ rfl
    · exact h
  · split
    · exact hput _ rfl
    · exact h

theorem State.InOrder.arbitrate (h : s.InOrder) : s.arbitrate.InOrder := by
  cases hb : s.burst with
  | some b =>
    rw [show s.arbitrate = s by unfold State.arbitrate; rw [hb]]
    exact h
  | none =>
    cases hr : s.chosen with
    | none =>
      rw [show s.arbitrate = s by unfold State.arbitrate; rw [hb, hr]]
      exact h
    | some r =>
      cases r with
      | fetcher c => exact h.grantFetch hb hr
      | loadUnit p =>
        rw [arbitrate_loadUnit hb hr]
        exact h.grantLoad hb p

theorem State.InOrder.tickOne (h : s.InOrder) (c : ChanId) : (s.tickOne c).InOrder := by
  rw [s.tickOne_ticked]
  exact (h.ticked c).arbitrate

/-! ### Completed bursts -/

theorem State.InOrder.fetchTaken (h : s.InOrder) (hb : s.burst = some b) (hreq : b.requester = .fetcher c) :
    (s.fetchTaken c b).InOrder := by
  obtain ⟨hchan, hchans, hseg, -, hrest⟩ := fetchTaken_appended s c b
  obtain ⟨_, _, _, e⟩ := s.endRead_eq b
  have hread : ∀ d, (s.endRead b).chan d = s.chan d := fun d => (congrArg (State.chan · d) e).trans rfl
  have hlength : ∀ i, ((s.fetchTaken c b).seg i).length = (s.seg i).length := fun i => by
    rw [hseg i, show (s.endRead b).seg i = s.seg i from (congrArg (State.seg · i) e).trans rfl]
    split <;> rfl
  have hburst : (s.fetchTaken c b).burst = none :=
    (congrArg State.burst hrest :).trans ((congrArg State.burst e).trans rfl)
  refine State.inOrder_iff.2 ⟨h.walks.fetchTaken c b, fun d => Chan.InOrder.relabel hlength ?_⟩
  change (State.chan _ d).InOrder s.segs (ownBurst d (State.burst _))
  rw [hburst]
  have hd := h.work d
  unfold Work.InOrder at hd
  rw [show (s.work d).burst = some b from hb] at hd
  by_cases hdc : d = c
  · subst hdc
    rw [hread] at hchan
    rw [hchan]
    rw [ownBurst_of_fetcher hreq] at hd
    refine ⟨⟨hd.settled.jump, hd.settled.now, hd.settled.waits⟩, fun ha => ?_⟩
    have hf := hd.fetches ha
    refine Chan.Fetches.on_list (hf.taken rfl ?_ (fun it hit => ?_) nofun) rfl
    · unfold Chan.fetched
      dsimp only
      rw [List.map_append, fetchItems_places]
      exact List.append_nil _
    · rcases List.mem_append.1 hit with hit | hit
      · exact .inl hit
      · exact .inr (fetchItems_marks hf.burst it hit)
  · rw [hchans d hdc, hread, (Spares.of_fetcher hreq).2 d hdc]
    exact hd

theorem State.InOrder.endPrefill (h : s.InOrder) (c : ChanId) : (s.endPrefill c).InOrder := by
  unfold State.endPrefill
  split
  case isTrue harming =>
    exact ChanDeed.set_inOrder (.armed harming.1) h
  case isFalse => exact h

theorem State.InOrder.fetchDone (h : s.InOrder) (hb : s.burst = some b) (hreq : b.requester = .fetcher c) :
    (s.fetchDone c b).InOrder := ((h.fetchTaken hb hreq).endPrefill c).arbitrate

end

end Sys2Proof.Machine
end

section
/-! ### Steps that leave segments and lists alone keep the part in order -/

namespace Sys2Proof.Machine

section
variable {s : State}

/-! ### Triggers, lines, ticks and the clock -/

theorem State.InOrder.triggerBy (h : s.InOrder) (own : Option ChanId) (src : Source) : (s.triggerBy own src).InOrder :=
  foldl_inOrder (fun _ _ ht => ChanDeed.put_inOrder (.trigger _ _) ht) _ h

theorem State.InOrder.trigger (h : s.InOrder) (src : Source) : (s.trigger src).InOrder := h.triggerBy none src

theorem State.InOrder.reach (h : s.InOrder) (e : SyncEvent) : (s.reach e).InOrder := h.triggerBy _ _

theorem State.InOrder.deliverLines {t : State} (h : t.InOrder) : (s.deliverLines t).InOrder :=
  foldl_inOrder (fun _ l hu => hu.trigger (.syn l)) _ h

theorem State.InOrder.drive (h : s.InOrder) (l : Fin 4) (d : Option (ChanId × MkUnit)) : (s.drive l d).InOrder :=
  State.InOrder.deliverLines (t := { s with drivers := s.drivers.set l d }) h

theorem State.InOrder.deliverEvent (h : s.InOrder) (e : SyncEvent) : (s.deliverEvent e).InOrder :=
  State.InOrder.reach (s := { s with syncEvents := s.syncEvents.erase e }) h e

theorem State.InOrder.deliverAll (h : s.InOrder) : s.deliverAll.InOrder :=
  foldl_inOrder (s := { s with syncEvents := [] }) (fun _ e hu => hu.reach e) s.syncEvents h

theorem State.InOrder.judgePin (h : s.InOrder) (n : Fin 4) (level : Bool) : (s.judgePin n level).InOrder := by
  unfold State.judgePin
  split
  · exact h
  · dsimp only
    split
    · exact State.InOrder.trigger (s := { s with judged := s.judged.set n level }) h _
    · exact h

theorem State.InOrder.finishTicks (h : s.InOrder) : s.finishTicks.InOrder := by
  refine foldl_inOrder (fun t c ht => ?_) _ h
  split
  · exact ht.tickOne c
  · exact ht

theorem State.InOrder.finishEdge (h : s.InOrder) : s.finishEdge.InOrder := h.finishTicks.deliverAll

theorem State.InOrder.tickChannel (h : s.InOrder) (c : ChanId) : (s.tickChannel c).InOrder :=
  foldl_inOrder (fun _ d ht => ht.tickOne d) _ (h.tickOne c)

theorem State.InOrder.lost (h : s.InOrder) : s.lost.InOrder := State.InOrder.loseAll (s := State.raiseBoth _ _ _) h

theorem State.InOrder.clockIsLost (h : s.InOrder) : s.clockIsLost.InOrder := by
  have hlost : s.finishEdge.lost.InOrder := h.finishEdge.lost
  exact hlost.deliverLines

theorem State.InOrder.clockIsBack (h : s.InOrder) : s.clockIsBack.InOrder := h

theorem State.InOrder.refclkPeriod (h : s.InOrder) : s.refclkPeriod.InOrder := by
  unfold State.refclkPeriod
  dsimp only
  split
  · split
    · exact h.clockIsLost
    · exact h
  · split
    · exact h
    · split
      · split
        · exact State.InOrder.clockIsBack
            (s := { s with monitor := { s.monitor with sinceEdge := s.monitor.sinceEdge + 1 } }) h
        · exact h
      · exact h

/-! ### Frames and readbacks -/

/-- A frame taken, where its command keeps the part in order. -/
theorem State.InOrder.onPort (h : s.InOrder) {p : Port} {n : Nat} {act : State → State}
    (hact : ∀ u, u.InOrder → (act u).InOrder) : (Sys2Proof.Machine.onPort p n s act).InOrder := by
  obtain ⟨ps, e | e⟩ := onPort_cases p n s act <;> rw [e]
  · exact h
  · exact hact _ h

theorem State.InOrder.answered (h : s.InOrder) (p : Port) (e : Byte) (st : Status) (pl : List Byte) :
    (s.respond p e st pl).InOrder := h

/-- The burst in flight is one of a Load Unit, or it becomes one, or none. -/
theorem State.InOrder.reburst (h : s.InOrder) {t : State} (hchans : t.chans = s.chans) (hsegs : t.segs = s.segs)
    (hburst : ∀ c, ownBurst c t.burst = ownBurst c s.burst) : t.InOrder := by
  intro c
  rw [hchans, hsegs, hburst]
  exact h c

theorem ownBurst_load {b : Burst} {p : Port} (hreq : b.requester = .loadUnit p) (c : ChanId) :
    ownBurst c (some b) = none := ownBurst_of_ne fun x hx hr => by
  obtain rfl := Option.some.inj hx
  cases hreq.symm.trans hr

theorem State.InOrder.answerCancelled (h : s.InOrder) (p : Port) : (s.answerCancelled p).InOrder := by
  unfold State.answerCancelled
  dsimp only
  split
  · split <;> exact h
  · exact h

theorem State.InOrder.readDone (h : s.InOrder) {b : Burst} {p q : Port} (hb : s.burst = some b)
    (hreq : b.requester = .loadUnit q) : (s.readDone p b).InOrder := by
  have hend : (s.endRead b).InOrder := by
    obtain ⟨_, _, _, e⟩ := s.endRead_eq b
    rw [e]
    refine h.reburst rfl rfl fun c => ?_
    rw [hb, ownBurst_load hreq]
    rfl
  unfold State.readDone
  refine State.InOrder.arbitrate ?_
  split
  · unfold State.takeRead
    dsimp only
    split
    · exact hend
    · split <;> exact hend
  · unfold State.dropRead
    dsimp only
    split
    · split
      · exact State.InOrder.answerCancelled (s := (s.endRead b).setLoad p _) hend p
      · exact hend
    · exact hend

/-! ### Commands on channels -/

theorem execArm_inOrder {t : State} {p : Port} {ch : Byte} (hs : s.InOrder) (h : execArm p ch s = .next t) :
    t.InOrder := by
  cases h
  refine hs.onPort fun u hu => ?_
  split
  · exact hu
  · split
    · exact hu
    · rename_i c _ hidle
      split
      · exact hu
      · split
        · exact hu
        · rename_i hcheck
          exact ((ChanDeed.put_inOrder (.arm p (not_not.1 hidle) hcheck) hu).answered _ _ _ _).arbitrate

theorem execDisarm_inOrder {t : State} {p : Port} {ch : Byte} (hs : s.InOrder) (h : execDisarm p ch s = .next t) :
    t.InOrder := by
  cases h
  refine hs.onPort fun u hu => ?_
  split
  · exact hu
  · split
    case h_1 hstate => exact (ChanDeed.put_inOrder (.disarm (.inl hstate)) hu).answered _ _ _ _
    case h_2 hstate => exact (ChanDeed.put_inOrder (.disarm (.inr hstate)) hu).answered _ _ _ _
    all_goals exact hu

theorem execJump_inOrder {t : State} {p : Port} {ch target : Byte} (hs : s.InOrder)
    (h : execJump p ch target s = .next t) : t.InOrder := by
  cases h
  refine hs.onPort fun u hu => ?_
  split
  · exact hu
  · split
    · exact hu
    · rename_i hcheck
      exact ((ChanDeed.put_inOrder (.jump target _ hcheck) hu).answered _ _ _ _).arbitrate

theorem execStop_inOrder {t : State} {p : Port} {mask mode : Byte} (hs : s.InOrder)
    (h : execStop p mask mode s = .next t) : t.InOrder := by
  cases h
  refine hs.onPort fun u hu => ?_
  split
  · exact hu
  · split
    · exact hu
    · split
      · exact hu
      · exact (foldl_inOrder (fun v c hv => ChanDeed.put_inOrder (.stop _) hv) (maskChans mask) hu).answered _ _ _ _

theorem execSetStatic_inOrder {t : State} {p : Port} {ch : Byte} {args : StaticArgs} (hs : s.InOrder)
    (h : execSetStatic p ch args s = .next t) : t.InOrder := by
  cases h
  refine hs.onPort fun u hu => ?_
  split
  · exact hu
  · split
    · exact hu
    · rename_i hcheck
      exact (ChanDeed.set_inOrder (.static _ (staticCheck_inactive hcheck)) hu).answered _ _ _ _

theorem execSetLive_inOrder {t : State} {p : Port} {ch : Byte} {point : Option Byte} {args : LiveArgs} (hs : s.InOrder)
    (h : execSetLive p ch point args s = .next t) : t.InOrder := by
  cases h
  refine hs.onPort fun u hu => ?_
  split
  · exact hu
  · split
    · exact hu
    · exact (ChanDeed.set_inOrder (.live _ _ (liveRecord_stepLaw args)) hu).answered _ _ _ _

theorem execClearFault_inOrder {t : State} {p : Port} {ch : Byte} (hs : s.InOrder)
    (h : execClearFault p ch s = .next t) : t.InOrder := by
  cases h
  refine hs.onPort fun u hu => ?_
  split
  · exact hu
  · split
    · rename_i hhalted
      exact (ChanDeed.set_inOrder (.clearFault hhalted) hu).answered _ _ _ _
    · exact hu

theorem execStart_inOrder {t : State} {p : Port} {mask : Byte} (hs : s.InOrder) (h : execStart p mask s = .next t) :
    t.InOrder := by
  cases h
  refine hs.onPort fun u hu => ?_
  split
  · exact hu
  · split
    · exact hu
    · split
      · exact hu
      · exact (foldl_inOrder (fun v c hv => ChanDeed.set_inOrder .start hv) (maskChans mask) hu).answered _ _ _ _

theorem execApplyGroup_inOrder {t : State} {p : Port} {mask : Byte} (hs : s.InOrder)
    (h : execApplyGroup p mask s = .next t) : t.InOrder := by
  cases h
  refine hs.onPort fun u hu => ?_
  split
  · exact hu
  · split
    · exact hu
    · exact (foldl_inOrder (fun v c hv => ChanDeed.set_inOrder .join hv) (maskChans mask) hu).answered _ _ _ _

theorem execSetSyncDriver_inOrder {t : State} {p : Port} {line : Byte} {driver : Option DriverArg} (hs : s.InOrder)
    (h : execSetSyncDriver p line driver s = .next t) : t.InOrder := by
  cases h
  refine hs.onPort fun u hu => ?_
  split
  · exact hu
  · split
    · exact hu
    · split
      · exact hu
      · split
        · exact (hu.drive _ _).answered _ _ _ _
        · exact hu

theorem State.InOrder.claimOne (h : s.InOrder) (p : Port) (y k : Bool) (c : ChanId) : (s.claimOne p y k c).InOrder := by
  unfold State.claimOne
  split <;> exact h

theorem State.InOrder.releaseOne (h : s.InOrder) (p : Port) (c : ChanId) : (s.releaseOne p c).InOrder := by
  unfold State.releaseOne
  split <;> exact h

theorem State.InOrder.writeEdgeMode (h : s.InOrder) (p : Port) (n : Fin 8) (m : EdgeMode) :
    (s.writeEdgeMode p n m).InOrder := by
  unfold State.writeEdgeMode
  dsimp only
  split <;> exact h

theorem State.InOrder.discardFrame (h : s.InOrder) (p : Port) (n : Nat) : (s.discardFrame p n).InOrder := by
  unfold State.discardFrame
  split
  · exact h.onPort fun u hu => hu
  · exact h

/-- A segment whose record changes keeps the part in order where its length stays. -/
theorem State.InOrder.setSeg (h : s.InOrder) (i : SegId) {r : SegRec} (hr : r.length = (s.seg i).length) :
    (s.setSeg i r).InOrder := by
  have hs : ∀ j, ((s.setSeg i r).segs.get j).length = (s.segs.get j).length := fun j => by
    have hj := State.setSeg_seg s i j r
    change ((s.setSeg i r).seg j).length = _
    rw [hj]
    split
    · rename_i e
      rw [e]
      exact hr
    · rfl
  exact fun c => ⟨⟨(h c).1.1.relabel hs, (h c).1.2.1.congr hs rfl, (h c).1.2.2⟩, (h c).2.relabel hs⟩

end

end Sys2Proof.Machine
end

section
/-! ### Every command that leaves segments and lists alone -/

namespace Sys2Proof.Machine

section
variable {s t : State} {i : Instr} {p : Port}

theorem exec_frame_inOrder (hi : framePort i = some p) (hr : recounts i = false) (h : exec i s = .next t)
    (hs : s.InOrder) : t.InOrder := by
  cases i
  case arm p ch => exact execArm_inOrder hs h
  case disarm p ch => exact execDisarm_inOrder hs h
  case setStatic p ch args => exact execSetStatic_inOrder hs h
  case setLive p ch point args => exact execSetLive_inOrder hs h
  case jump p ch target => exact execJump_inOrder hs h
  case clearFault p ch => exact execClearFault_inOrder hs h
  case stop p mask mode => exact execStop_inOrder hs h
  case applyGroup p mask => exact execApplyGroup_inOrder hs h
  case start p mask => exact execStart_inOrder hs h
  case setSyncDriver p line driver => exact execSetSyncDriver_inOrder hs h
  case setMarker p ch unit args =>
    cases h
    refine hs.onPort fun u hu => ?_
    split
    · exact hu
    · exact (ChanDeed.set_inOrder (.unit _ _) hu).answered _ _ _ _
  case identify p | queryStore p | querySegment p seg | setEventEnable p kinds | takeEvents p =>
    cases h
    exact hs.onPort fun u hu => hu
  case loadData p samples =>
    cases h
    exact hs.onPort fun u hu => (State.InOrder.answered (s := State.setLoad _ _ _) hu _ _ _ _).arbitrate
  case setVisibility p seg vis =>
    cases h
    refine hs.onPort fun u hu => ?_
    split
    · exact hu
    · exact (hu.setSeg _ (r := { u.seg _ with vis := some _ }) rfl).answered _ _ _ _
  case readSegment p seg offset count =>
    cases h
    refine hs.onPort fun u hu => ?_
    split
    · exact hu
    · exact State.InOrder.arbitrate (s := State.setPort _ _ _) hu
  case queryEntry p ch index =>
    cases h
    refine hs.onPort fun u hu => ?_
    split
    · exact hu
    · split <;> exact hu
  case queryList p ch | queryChannel p ch =>
    cases h
    refine hs.onPort fun u hu => ?_
    split <;> exact hu
  case claim p mask yieldable take =>
    cases h
    refine hs.onPort fun u hu => ?_
    split
    · exact hu
    · exact (foldl_inOrder (fun v c hv => hv.claimOne p yieldable take c) (maskChans mask) hu).answered _ _ _ _
  case release p mask =>
    cases h
    refine hs.onPort fun u hu => ?_
    split
    · exact hu
    · exact (foldl_inOrder (fun v c hv => hv.releaseOne p c) (maskChans mask) hu).answered _ _ _ _
  case setSourceEdge p source mode =>
    cases h
    refine hs.onPort fun u hu => ?_
    split
    · exact hu
    · exact (hu.writeEdgeMode _ _ _).answered _ _ _ _
    · exact hu
  case fire p =>
    cases h
    exact hs.onPort fun u hu => (hu.trigger _).answered _ _ _ _
  all_goals contradiction

theorem execSclkRisingEdge_inOrder (hs : s.InOrder) : ∃ t, execSclkRisingEdge s = .next t ∧ t.InOrder := by
  refine ⟨_, rfl, ?_⟩
  have hedge := hs.finishEdge
  generalize s.finishEdge = u at hedge
  dsimp only
  split <;> exact hedge

theorem execReadTransaction_inOrder {n : Nat} (hs : s.InOrder) (h : execReadTransaction p n s = .next t) :
    t.InOrder := by
  cases h
  dsimp only
  split
  · exact hs
  · split
    · split <;> exact hs
    · exact hs

theorem exec_event_inOrder (hi : framePort i = none) (hr : recounts i = false) (h : exec i s = .next t)
    (hs : s.InOrder) : t.InOrder := by
  cases i
  case badFrame p bytes =>
    cases h
    split
    · exact hs
    · split
      · exact hs.onPort fun u hu => hu
      · exact hs.discardFrame p _
  case overrun p =>
    cases h
    exact hs.discardFrame p 1
  case readTransaction p clocked => exact execReadTransaction_inOrder hs h
  case resetRelease levels =>
    cases h
    split <;> exact hs
  case prstRelease p =>
    cases h
    exact hs
  case clockLost =>
    cases h
    split
    · exact hs.clockIsLost
    · exact hs
  case runLengthReset =>
    cases h
    split <;> exact hs
  case clockRestored =>
    cases h
    split
    · exact hs.clockIsBack
    · exact hs
  case sclkRisingEdge =>
    obtain ⟨u, hu, hin⟩ := execSclkRisingEdge_inOrder hs
    obtain rfl := Host.Outcome.next.inj (hu.symm.trans h)
    exact hin
  case outputTick c =>
    cases h
    split
    · exact hs.tickChannel c
    · exact hs
  case starved c =>
    cases h
    split
    · exact hs.tickChannel c
    · exact hs
  case markerPulseEnd c u =>
    cases h
    split
    · exact ChanDeed.set_inOrder (.unit u _) hs
    · exact hs
  case trgEdge pin level =>
    cases h
    split
    · exact hs.judgePin pin level
    · exact hs
  case judgedLevelChange pin level =>
    cases h
    split
    · exact hs
    · exact hs.judgePin pin level
  case syncLineEdge line =>
    cases h
    split
    · exact hs.finishTicks.deliverEvent _
    · exact hs
  case fetchBurstComplete us =>
    cases h
    split
    · rename_i b hb
      split
      · rename_i c hreq
        exact State.InOrder.fetchDone (s := s.disturb us) hs hb hreq
      · exact hs
    · exact hs
  case readbackBurstComplete us =>
    cases h
    split
    · rename_i b hb
      split
      · rename_i q hreq _
        exact State.InOrder.readDone (s := s.disturb us) hs hb hreq
      · exact hs
    · exact hs
  all_goals contradiction

end

end Sys2Proof.Machine
end

section
/-! ### Commands on segments and lists, and resets, leave active channels and their bursts alone (R30, R46, R64) -/

namespace Sys2Proof.Machine

/-- Every channel that is active afterwards is as it was, and so is every channel's own burst in flight. -/
structure Aside (s t : State) : Prop where
  chan : ∀ c, (t.chan c).state.active = true → t.chan c = s.chan c
  burst : ∀ c, ownBurst c t.burst = ownBurst c s.burst

/-- A change of the burst in flight that touches no Fetcher's burst. -/
theorem ownBurst_map {f : Burst → Burst} (hreq : ∀ b, (f b).requester = b.requester)
    (hf : ∀ b c, b.requester = .fetcher c → f b = b) (c : ChanId) (o : Option Burst) :
    ownBurst c (o.map f) = ownBurst c o := by
  cases o with
  | none => rfl
  | some b =>
    by_cases hb : b.requester = .fetcher c
    · rw [Option.map_some, hf b c hb]
    · have hother : ∀ x : Burst, x.requester = b.requester → ownBurst c (some x) = none := fun x hx =>
        ownBurst_of_ne fun y hy => by
          obtain rfl := Option.some.inj hy
          rwa [hx]
      rw [Option.map_some, hother b rfl, hother _ (hreq b)]

theorem ownBurst_discard (p : Port) (c : ChanId) (o : Option Burst) :
    ownBurst c (o.map (Burst.discard p)) = ownBurst c o := by
  refine ownBurst_map (fun b => ?_) (fun b d hb => Burst.discard_of_ne fun h => by cases hb.symm.trans h) c o
  unfold Burst.discard
  split <;> rfl

namespace Aside

variable {s t u : State}

theorem trans (h : Aside s u) (k : Aside u t) : Aside s t := by
  refine ⟨fun c hc => ?_, fun c => (k.burst c).trans (h.burst c)⟩
  have hu := k.chan c hc
  exact hu.trans (h.chan c (hu ▸ hc))

theorem of_burst (hc : t.chans = s.chans) (hb : ∀ c, ownBurst c t.burst = ownBurst c s.burst) : Aside s t :=
  ⟨fun c _ => congrArg (fun v : Vector Chan 8 => v.get c) hc, hb⟩

/-- What changes neither channels nor the burst in flight. -/
theorem of_eq (hc : t.chans = s.chans) (hb : t.burst = s.burst) : Aside s t := of_burst hc fun _ => by rw [hb]

theorem refl (s : State) : Aside s s := of_eq rfl rfl

theorem ite {p : Prop} [Decidable p] (h : Aside s t) (k : Aside s u) : Aside s (if p then t else u) := by
  split
  · exact h
  · exact k

theorem answered (h : Aside s u) (p : Port) (e : Byte) (st : Status) (pl : List Byte) : Aside s (u.respond p e st pl) :=
  h.trans (of_eq rfl rfl)

theorem settled (h : Aside s u) : Aside s u.settleCancelled := by
  obtain ⟨_, _, e⟩ := u.settleCancelled_eq
  rw [e]
  exact h.trans (of_eq rfl rfl)

/-- A frame on a port: before its command, only the ports change. -/
theorem onPort {p : Port} {n : Nat} {act : State → State} (h : ∀ u, Aside u (act u)) :
    Aside s (Sys2Proof.Machine.onPort p n s act) := by
  obtain ⟨ps, e | e⟩ := onPort_cases p n s act <;> rw [e]
  · exact of_eq rfl rfl
  · have hports : Aside s { s with ports := ps } := of_eq rfl rfl
    exact hports.trans (h _)

end Aside

theorem respond_aside (s : State) (p : Port) (e : Byte) (st : Status) (pl : List Byte) :
    Aside s (s.respond p e st pl) := .of_eq rfl rfl

theorem givePages_aside (s : State) (l : List PageNo) : Aside s (s.givePages l) := by
  obtain ⟨_, _, _, e⟩ := s.givePages_eq l
  rw [e]
  exact .of_eq rfl rfl

/-- The readback of a segment that is freed drops its own burst only (R37). -/
theorem freeSegment_aside (s : State) (i : SegId) : Aside s (s.freeSegment i) := by
  refine .of_burst (s.freeSegment_chans i) fun c => ?_
  rw [s.freeSegment_spec i]
  refine ownBurst_map (fun b => ?_) (fun b d hb => ?_) c s.burst
  · split
    · split <;> rfl
    · rfl
  · rw [hb]

theorem releaseSegment_aside (s : State) (i : SegId) : Aside s (s.releaseSegment i) := by
  have hraise : Aside s (s.raiseFreed i (s.seg i).owner) := by
    unfold State.raiseFreed
    split
    · exact .of_eq rfl rfl
    · exact .refl s
  exact .ite (hraise.trans (freeSegment_aside _ i)) (.of_eq rfl rfl)

theorem releaseAll_aside (s : State) (l : List Entry) : Aside s (s.releaseAll l).1 := by
  induction l generalizing s with
  | nil => exact .refl s
  | cons e r ih => exact (releaseSegment_aside s e.seg).trans (ih _)

theorem endLoad_aside (s : State) (p : Port) : Aside s (s.endLoad p) := by
  have hclosed : ∀ u : State, Aside u (u.setLoad p (u.loadUnit p).closed) := fun u => .of_eq rfl rfl
  refine .trans ?_ (hclosed _)
  split
  · exact freeSegment_aside s _
  · exact .refl s

theorem abortOpen_aside (s : State) (p : Port) : Aside s (s.abortOpen p) := by
  have hpass : Aside s (if s.drainRequest p then s.setPassOver p 0 else s) := .ite (.of_eq rfl rfl) (.refl s)
  unfold State.abortOpen
  dsimp only
  split
  · exact hpass.trans (endLoad_aside _ p)
  · exact hpass.trans (.of_eq rfl rfl)

theorem resetOnePort_aside (s : State) (p : Port) : Aside s (s.resetOnePort p) := by
  have hload : ∀ u : State, Aside u (u.resetLoad p) := fun u => by
    have hdrop : Aside u
        ((u.dropReadBurst p).setLoad p { (u.dropReadBurst p).loadUnit p with readback := none }) := by
      rw [u.dropReadBurst_eq p]
      exact .of_burst rfl fun c => ownBurst_discard p c u.burst
    exact .ite (hdrop.trans (abortOpen_aside _ p)) hdrop
  have hclaims : ∀ cl, Aside s { s with claims := cl } := fun _ => .of_eq rfl rfl
  exact ((hclaims _).trans (hload _)).trans (.of_eq rfl rfl)

theorem openOn_aside (s : State) (p : Port) (i : SegId) (n : Nat) (v : Visibility) (label : Option Half) :
    Aside s (s.openOn p i n v label) := by
  obtain ⟨_, e⟩ := s.takePages_eq (pagesFor n)
  unfold State.openOn
  dsimp only
  rw [e]
  exact .of_eq rfl rfl

theorem closeOn_aside (s : State) (p : Port) (i : SegId) : Aside s (s.closeOn p i).1 := by
  have hready : ∀ r, Aside s (s.setSeg i r) := fun r => .of_eq rfl rfl
  unfold State.closeOn
  dsimp only
  split_ifs
  · exact .of_eq rfl rfl
  · exact (freeSegment_aside s i).trans (.of_eq rfl rfl)
  · exact (hready _).trans ((givePages_aside _ _).trans (.of_eq rfl rfl))

theorem deleteOn_aside {s t : State} {p : Port} {i : SegId} (h : s.deleteOn p i = .ok t) : Aside s t := by
  unfold State.deleteOn at h
  dsimp only at h
  split at h
  · cases h
  · split at h <;> cases h
  · split at h <;> cases h
    exact .refl s
  · split at h
    · split at h <;> cases h
      · exact freeSegment_aside s i
      · exact .of_eq rfl rfl
    · cases h

/-- The list of a channel that is not active changes (R64). -/
theorem setList_aside {s : State} {c : ChanId} (h : (s.chan c).state.active = false) (l : List Entry) :
    Aside s (s.setChan c { s.chan c with list := l }) := by
  refine ⟨fun d hd => ?_, fun _ => rfl⟩
  rw [State.setChan_chan] at hd ⊢
  split at hd
  · rw [show _ = false from h] at hd
    cases hd
  · rename_i hne
    rw [if_neg hne]

theorem putOn_aside {s : State} {p : Port} {c : ChanId} {n : Nat} {a : EntryArg} {e : Entry}
    (h : s.putCheck p c n a = .ok e) : Aside s (s.putOn c n e) := by
  have hput : ∀ l, Aside s ((s.setChan c { s.chan c with list := l }).bindSegment e.seg) := fun l =>
    (setList_aside (putCheck_inactive h) l).trans (.of_eq rfl rfl)
  unfold State.putOn
  dsimp only
  split
  · exact hput _
  · exact (hput _).trans (releaseSegment_aside _ _)

theorem trimOn_aside {s : State} {c : ChanId} {m : Nat} (h : s.trimCheck c m = none) : Aside s (s.trimOn c m).1 :=
  (setList_aside (trimCheck_inactive h) _).trans (releaseAll_aside _ _)

/-- The end of a write burst but for its grant decision (R25, R28). -/
def State.drainEnd (s : State) (p : Port) (b : Burst) : State :=
  if (s.loadUnit p).phase = .aborting then (s.drained p b).endLoad p else s.drained p b

theorem State.drainDone_arbitrate (s : State) (p : Port) (b : Burst) : s.drainDone p b = (s.drainEnd p b).arbitrate :=
  s.drainDone_eq p b

theorem drainEnd_aside {s : State} {p : Port} {b : Burst} (hb : s.burst = some b) (hreq : b.requester = .loadUnit p) :
    Aside s (s.drainEnd p b) := by
  have hdrained : Aside s (s.drained p b) := .of_burst rfl fun c => by
    rw [hb, ownBurst_load hreq]
    rfl
  exact .ite (hdrained.trans (endLoad_aside _ p)) hdrained

theorem State.drainEnd_chans (s : State) (p : Port) (b : Burst) : (s.drainEnd p b).chans = s.chans := by
  unfold State.drainEnd
  split
  · unfold State.endLoad
    dsimp only
    split
    · exact State.freeSegment_chans _ _
    · rfl
  · rfl

/-- The commands that can change a count or a segment's state, the end of a write burst apart. -/
theorem exec_aside {i : Instr} {s t : State} (hi : recounts i = true) (hdrain : i ≠ .drainBurstComplete)
    (h : exec i s = .next t) (hreset : i ≠ .deviceReset) : Aside s t := by
  cases i
  case openLoad p seg declared vis label =>
    cases h
    refine .onPort fun u => ?_
    split
    · exact respond_aside u _ _ _ _
    · exact (openOn_aside u _ _ _ _ _).answered _ _ _ _
  case closeLoad p =>
    cases h
    refine .onPort fun u => ?_
    dsimp only
    split
    · exact respond_aside u _ _ _ _
    · exact .ite (respond_aside u _ _ _ _) (.ite (respond_aside u _ _ _ _) ((closeOn_aside u p _).answered _ _ _ _))
  case abortLoad p =>
    cases h
    refine .onPort fun u => ?_
    split
    · exact respond_aside u _ _ _ _
    · exact respond_aside u _ _ _ _
    · exact (abortOpen_aside u p).answered _ _ _ _
  case deleteSegment p seg =>
    cases h
    refine .onPort fun u => ?_
    split
    · exact respond_aside u _ _ _ _
    · rename_i hdelete
      exact ((deleteOn_aside hdelete).answered _ _ _ _).settled
  case putEntry p ch index entry =>
    cases h
    refine .onPort fun u => ?_
    split
    · exact respond_aside u _ _ _ _
    · split
      · exact respond_aside u _ _ _ _
      · rename_i hcheck
        exact ((putOn_aside hcheck).answered _ _ _ _).settled
  case trimList p ch newLength =>
    cases h
    refine .onPort fun u => ?_
    split
    · exact respond_aside u _ _ _ _
    · split
      · exact respond_aside u _ _ _ _
      · rename_i hcheck
        exact ((trimOn_aside hcheck).answered _ _ _ _).settled
  case resetPort p =>
    cases h
    exact .onPort fun u => (resetOnePort_aside u p).answered _ _ _ _
  case portReset p =>
    cases h
    exact (resetOnePort_aside s p).trans (.of_eq rfl rfl)
  case drainBurstComplete => exact absurd rfl hdrain
  case deviceReset => exact absurd rfl hreset
  all_goals cases hi

end Sys2Proof.Machine
end

section
/-! ### The play-order law through every step -/

namespace Sys2Proof.Machine

section
variable {segs segs' : Vector SegRec 256} {own : Option Burst} {k : Chan} {s t : State}

/-! ### Segments that a list names keep their lengths -/

theorem lengthOf_named (h : ∀ e ∈ k.list, (segs'.get e.seg).length = (segs.get e.seg).length) :
    lengthOf segs' k = lengthOf segs k := by
  funext j
  unfold lengthOf
  cases he : k.entryAt j with
  | none => rfl
  | some e => exact congrArg (fun o : Option Nat => o.getD 0) (h e (List.mem_of_getElem? he))

/-- A channel is in order by the segments that its list names, and so is its place in the walk. -/
theorem State.InOrder.named (h : s.InOrder) (hchans : t.chans = s.chans)
    (hburst : ∀ c, ownBurst c t.burst = ownBurst c s.burst)
    (hlength : ∀ c, ∀ e ∈ (s.chan c).list, (t.seg e.seg).length = (s.seg e.seg).length) : t.InOrder := by
  intro c
  obtain ⟨⟨hwalk, hlong, hsteps⟩, hin⟩ := h c
  have hlengthOf : lengthOf t.segs (s.chans.get c) = lengthOf s.segs (s.chans.get c) := lengthOf_named (hlength c)
  have hlong' : (s.chans.get c).Long t.segs := fun e he => by
    rw [show (t.segs.get e.seg).length = _ from hlength c e he]
    exact hlong e he
  rw [hchans, hburst]
  refine ⟨⟨fun ha => ?_, hlong', hsteps⟩, hin.settled, fun ha => ?_⟩
  · obtain ⟨hlist, hpass⟩ := hwalk ha
    refine ⟨⟨hlong', hlist.closed, hlist.entry, hlist.jump⟩, fun hp => ?_⟩
    unfold Chan.InPass
    rw [hlengthOf]
    exact hpass hp
  · rw [hlengthOf]
    exact hin.fetches ha

/-! ### The law of the part -/

theorem playOrderLaw_iff :
    s.PlayOrderLaw ↔ ∀ c, (s.chan c).state.active = true →
      (s.chan c).Fetches (lengthOf s.segs (s.chan c)) (ownBurst c s.burst) := by
  unfold State.PlayOrderLaw
  simp only [fetches_iff]
  exact .rfl

theorem State.InOrder.playOrderLaw (h : s.InOrder) : s.PlayOrderLaw :=
  playOrderLaw_iff.2 fun c => (h c).2.fetches

theorem Chan.CourseLaw.settled (h : k.CourseLaw) : k.Settled := by
  obtain ⟨-, hstop, hjump, -, -, -, -, -, hwait, -⟩ := h
  refine ⟨hjump, fun hnow => ?_, fun hs => (hwait hs).2⟩
  cases hs : k.state with
  | stopping => exact .inl rfl
  | waiting => exact .inr rfl
  | idle | arming | armed | running | halted =>
    rw [hs] at hstop
    cases hstop.symm.trans hnow

theorem State.inOrder_of_laws (href : s.ReferenceLaw) (hpages : s.PageCountLaw) (hwalk : s.WalkLaw)
    (hlaws : ∀ c, (s.chan c).CourseLaw ∧ (s.chan c).FlushedLaw ∧ (s.chan c).RangeLaw) (hplay : s.PlayOrderLaw) :
    s.InOrder := by
  have hwalks := State.walks_of_laws href hpages (fun c => (hlaws c).2.2) hwalk
  exact State.inOrder_iff.2 ⟨hwalks, fun c => ⟨(hlaws c).1.settled, playOrderLaw_iff.1 hplay c⟩⟩

/-! ### Steps that move segments -/

/-- Lists of the same entries before and after name segments whose lengths have stayed (R30, R46). -/
theorem Stood.lengths (h : Stood s t) (hs : s.ReferenceLaw) (ht : t.ReferenceLaw) {c : ChanId}
    (hlist : (t.chan c).list = (s.chan c).list) :
    ∀ e ∈ (s.chan c).list, (t.seg e.seg).length = (s.seg e.seg).length := fun _ he =>
  h.2 _ (hs.held he) (ht.held (hlist.symm ▸ he))

theorem Aside.playOrderLaw (h : Aside s t) (hstood : Stood s t) (hs : s.ReferenceLaw) (ht : t.ReferenceLaw)
    (hplay : s.PlayOrderLaw) : t.PlayOrderLaw := by
  refine playOrderLaw_iff.2 fun c ha => ?_
  have hchan := h.chan c ha
  rw [hchan] at ha ⊢
  rw [h.burst, lengthOf_named (hstood.lengths hs ht (congrArg Chan.list hchan))]
  exact playOrderLaw_iff.1 hplay c ha

/-- The end of a write burst, with the grant decision it causes (R25, R115). -/
theorem State.InOrder.drainDone (h : s.InOrder) {b : Burst} {p : Port} (hb : s.burst = some b)
    (hreq : b.requester = .loadUnit p) (hstood : Stood s (s.drainDone p b)) (hs : s.ReferenceLaw)
    (ht : (s.drainDone p b).ReferenceLaw) : (s.drainDone p b).InOrder := by
  rw [State.drainDone_arbitrate] at hstood ht ⊢
  have hchans := s.drainEnd_chans p b
  refine (h.named hchans (drainEnd_aside hb hreq).burst fun c e he => ?_).arbitrate
  have hlist : ((s.drainEnd p b).arbitrate.chan c).list = (s.chan c).list := by
    have hframe := (s.drainEnd p b).arbitrate_chan c
    exact (congrArg Chan.list hframe :).trans (congrArg (fun v : Vector Chan 8 => (v.get c).list) hchans)
  have hlength := hstood.lengths hs ht hlist e he
  unfold State.seg at hlength
  rwa [State.arbitrate_segs] at hlength

theorem exec_moving_playOrderLaw {i : Instr} (hi : recounts i = true) (hin : s.InOrder) (hload : s.LoadLaw)
    (href : s.ReferenceLaw) (href' : t.ReferenceLaw) (h : exec i s = .next t) : t.PlayOrderLaw := by
  have hstood := exec_stood hi hload h
  by_cases hreset : i = .deviceReset
  · subst hreset
    cases h
    exact fun c ha => absurd ha (reset_inactive c)
  by_cases hdrain : i = .drainBurstComplete
  · subst hdrain
    cases h
    revert hstood href'
    split
    · rename_i b hb
      split
      · rename_i p hreq _
        exact fun href' hstood => (hin.drainDone hb hreq hstood href href').playOrderLaw
      · exact fun _ _ => hin.playOrderLaw
    · exact fun _ _ => hin.playOrderLaw
  · exact (exec_aside hi hdrain h hreset).playOrderLaw hstood href href' hin.playOrderLaw

/-- A step that leaves the segments alone keeps every channel in order. -/
theorem exec_inOrder {i : Instr} (hi : recounts i = false) (h : exec i s = .next t) (hs : s.InOrder) : t.InOrder := by
  cases hp : framePort i with
  | none => exact exec_event_inOrder hp hi h hs
  | some p => exact exec_frame_inOrder hp hi h hs

end

/-- Settles O58: with the place in the walk and the settled course, the play-order law of each channel is kept by every
tick, command, grant and burst; the commands that move segments leave every active channel and its burst as they are. -/
theorem playOrderKept : Obligations.PlayOrderKept := by
  intro s t hload href hpages _ hwalk hlaws hplay h
  have hin := State.inOrder_of_laws href hpages hwalk hlaws hplay
  cases hp : s.pending with
  | nil =>
    cases (step_nil s hp).symm.trans h
    exact hin.refclkPeriod.playOrderLaw
  | cons i q =>
    have hexec : exec i { s with pending := q } = .next t := (step_cons s i q hp).symm.trans h
    cases hi : recounts i with
    | false => exact (exec_inOrder (s := { s with pending := q }) hi hexec hin).playOrderLaw
    | true =>
      exact exec_moving_playOrderLaw (s := { s with pending := q }) hi hin hload href
        (referenceLawKept s t hload href h) hexec

end Sys2Proof.Machine
end
